-- ==== Sys2Proof/Word.lean ====
section
/-! DEFINITION. The word types of the block: the byte, in which every datum is kept (20_memory R33), and the 40-bit command
word (30_encoding R50). -/

namespace Sys2Proof

/-- A byte: every datum of the frame store, of a transaction and of a chip register (R9, R33). -/
abbrev Byte := BitVec 8

/-- The command word `CW[39:0]`, bit 39 the most significant (R50). -/
abbrev CommandWord := BitVec 40

end Sys2Proof
end

