-- ==== Sys2Proof/Config.lean ====
section
/-! DEFINITION. What an implementation fixes: the constants of 00_scope R5 and R6, the types of the open parameters (row remap
table, bus address, cache policy, scripts), the messages of the transport port, and the free values, which have no body. -/

namespace Sys2Proof

namespace Config

/-! ### The constants of R5 and R6 (carried here so that an audit of the literals, N2, changes them in one place) -/

/-- SEQ0_LEN: bytes of S0, one command byte and 180 data bytes (R5, R12). -/
abbrev seq0Len : Nat := 181
/-- SEQ1_LEN: bytes of S1, one command byte and 177 data bytes (R5, R13). -/
abbrev seq1Len : Nat := 178
/-- SPLIT: the first channel index that routes to S1 (R5, R31). -/
abbrev split : Nat := 180
/-- NCHAN: size of the channel index space (R5). -/
abbrev nchan : Nat := 357
/-- GRID_W: columns of the grid (R6, decision D7 of the spec). -/
abbrev gridW : Nat := 13
/-- GRID_H: logical rows of the grid (R5). -/
abbrev gridH : Nat := 9
/-- BLK0_COLS: columns 0 to 9 form the first column block (R5). -/
abbrev blk0Cols : Nat := 10
/-- BLK0_STRIDE: pixel slots per physical row in the first block (R5). -/
abbrev blk0Stride : Nat := 10
/-- BLK1_STRIDE: pixel slots per physical row in the second block (R5). -/
abbrev blk1Stride : Nat := 3
/-- BLK1_OFFSET: the constant added for columns from 10 on (R5). -/
abbrev blk1Offset : Nat := 80
/-- EXC_COL: the even column that takes the odd columns' channel order (R5). -/
abbrev excCol : Nat := 12
/-- NPAGES: pages 0 to 4 (R5). -/
abbrev npages : Nat := 5
/-- READ_LEN: bytes a write-read transaction receives (R6, decision D15 of the spec). -/
abbrev readLen : Nat := 1

/-- Register address of the unlock key (R5, R21). -/
abbrev unlockReg : Byte := 0xFE
/-- The unlock key (R5, R21). -/
abbrev unlockKey : Byte := 0xC5
/-- PAGE_SEL_REG: register address of the page select (R5). -/
abbrev pageSelReg : Byte := 0xFD
/-- Register address of the software reset on page 4 (R5, R21). -/
abbrev resetReg : Byte := 0x3F
/-- The software-reset key (R5, R21). -/
abbrev resetKey : Byte := 0xAE
/-- GCC_REG: the global current-limit register on page 4 (R5). -/
abbrev gccReg : Byte := 0x01
/-- CFG_REG: the configuration register on page 4, bit 0 the shutdown control (R5). -/
abbrev cfgReg : Byte := 0x00
/-- The bit that turns the chip's software-shutdown mode off when it is 1 (R5, R112). -/
abbrev shutdownOffBit : Byte := 0x01
/-- The command byte, the first byte of either bulk payload (R14, R120). -/
abbrev commandByte : Byte := 0x00

end Config

/-- One of the chip's five register banks (R5, R16). -/
abbrev Page := Fin Config.npages

/-- CFG_PAGE, the configuration page (R5). -/
abbrev Config.cfgPage : Page := 4

/-- ROWMAP (R15): nine entries, each in [0, 9), which have to be a permutation of 0..8. The proof field is that requirement:
a table that fails it (R169, U21) cannot be carried by the machine. -/
structure RowMap where
  entries : Vector (Fin Config.gridH) Config.gridH
  nodup   : entries.toList.Nodup
deriving DecidableEq, Repr

/-- CACHE_ON_ERROR (R6, R143): what a failed transaction does to the page cache. -/
inductive CachePolicy where
  /-- The spec's policy: the cache becomes Unknown. -/
  | invalidate
  /-- The policy of the reference software: the cache keeps its value. -/
  | keep
deriving DecidableEq, Repr

/-- A non-empty byte list, as a script's write carries it (R127): its first byte and the bytes after it. -/
structure Payload where
  head : Byte
  tail : List Byte
deriving DecidableEq, Repr, Inhabited

/-- A script of R127 in the shape the spec gives it: the first pair is on page 0, later pairs are on pages 1, 2 and 3 in
ascending order. More than one payload on a page is allowed (DESIGN CHOICE, log 9). -/
structure Script where
  first : Payload
  page1 : List Payload
  page2 : List Payload
  page3 : List Payload
deriving DecidableEq, Repr, Inhabited

/-- The constants an implementation fixes and no rule of the block writes (R6, R15, R18, R127). -/
structure Params where
  rowMap        : RowMap
  busAddr       : BitVec 7
  cacheOnError  : CachePolicy
  scriptSetLed0 : Script
  scriptSetLed1 : Script
  scriptSetLeds : Script
deriving DecidableEq, Repr

/-- A transport error (R141): opaque. The number is only a name for it, no rule looks at it (DESIGN CHOICE, log 5). -/
structure TransportError where
  token : Nat
deriving DecidableEq, Repr, Inhabited

/-- A transaction on the transport port (R38). Each carries the bus address (R18). -/
inductive Transaction where
  /-- `W(B)`: send `bytes`. -/
  | write (addr : BitVec 7) (bytes : List Byte)
  /-- `WR(B, n)`: send `bytes`, then receive `count` bytes. -/
  | writeRead (addr : BitVec 7) (bytes : List Byte) (count : Nat)
deriving DecidableEq, Repr

/-- The bytes an `ok` write-read yields: READ_LEN of them (R38, R91). -/
abbrev ReadData := Vector Byte Config.readLen

/-- What the transport does with a transaction (R40, R46). -/
inductive Answer where
  /-- `ok`, with the bytes it returns if the transaction is a write-read (a write does not look at them). -/
  | ok (data : ReadData)
  /-- `err(e)`. -/
  | err (e : TransportError)
  /-- No answer ever comes (R46, U10). -/
  | never
deriving DecidableEq, Repr, Inhabited

/-- The outcome of a transaction as the wire trace records it (R38, R90, R91). -/
inductive BusOutcome where
  | ok
  | okData (data : List Byte)
  | err (e : TransportError)
deriving DecidableEq, Repr

/-- One entry of the wire trace (R8): a transaction and its outcome. -/
structure TraceEntry where
  transaction : Transaction
  outcome     : BusOutcome
deriving DecidableEq, Repr

/-- FREE VALUE (log 3): the answer of the transport oracle to the transaction that is number `asked`, which may depend on the
wire trace so far (R40). Nothing is known of it. -/
opaque Config.freeAnswer (asked : Nat) (trace : List TraceEntry) (t : Transaction) : Answer

/-- FREE VALUE (log 9): SCRIPT_SET_LED_0, which the spec leaves OPEN (R127, D19). -/
opaque Config.scriptSetLed0 : Script

/-- FREE VALUE (log 9): SCRIPT_SET_LED_1, which the spec leaves OPEN (R127, D19). -/
opaque Config.scriptSetLed1 : Script

/-- FREE VALUE (log 9): SCRIPT_SET_LEDS, which the spec leaves OPEN (R127, D19). -/
opaque Config.scriptSetLeds : Script

end Sys2Proof
end

