-- ==== Sys2Proof/Syntax.lean ====
section
/-! DEFINITION. The thirteen commands (30_encoding R55), one constructor for each row of spec/opcode_table.json. -/

namespace Sys2Proof

/-- A command with its operands (R55, R61). Channel index, coordinates and page are numbers (R78); values are bytes. CONSTRUCT
is another name of `reset` (R62). -/
inductive Instr where
  /-- SET_LED idx, val (R74). -/
  | setLed (idx : Nat) (val : Byte)
  /-- SET_PIXEL x, y, r, g, b (R75). -/
  | setPixel (x y : Nat) (r g b : Byte)
  /-- SELECT_PAGE p (R94). -/
  | selectPage (p : Nat)
  /-- RESET (R95). -/
  | reset
  /-- SET_GLOBAL_VOLTAGE v (R110). -/
  | setGlobalVoltage (v : Byte)
  /-- GET_GLOBAL_VOLTAGE (R111). -/
  | getGlobalVoltage
  /-- SET_SOFTWARE_SHUTDOWN_MODE_OFF (R112). -/
  | setSoftwareShutdownModeOff
  /-- GET_SOFTWARE_SHUTDOWN_MODE (R113). -/
  | getSoftwareShutdownMode
  /-- SET_ALL_LED_SCALES scale (R121). -/
  | setAllLedScales (scale : Byte)
  /-- WRITE_LED_MATRIX (R123). -/
  | writeLedMatrix
  /-- SET_LED_0 (R124). -/
  | setLed0
  /-- SET_LED_1 (R125). -/
  | setLed1
  /-- SET_LEDS (R126). -/
  | setLeds
deriving DecidableEq, Repr

end Sys2Proof
end

