-- ==== Sys2Proof/WellFormed.lean ====
section
/-! DEFINITION. Which commands can be written as a command word: each operand fits its field (30_encoding R52 to R54). An
operand outside its documented RANGE (idx from 357 on, say) is well formed: it is a legal encoding that raises RangeFault
(R57). -/

namespace Sys2Proof

/-- Every operand fits the field of its format: idx 9 bits (R53), x and y 4 bits (R54), p 8 bits (R52). -/
def Instr.wellFormed : Instr → Bool
  | .setLed idx _                => decide (idx < 2 ^ 9)
  | .setPixel x y _ _ _          => decide (x < 2 ^ 4) && decide (y < 2 ^ 4)
  | .selectPage p                => decide (p < 2 ^ 8)
  | .reset                       => true
  | .setGlobalVoltage _          => true
  | .getGlobalVoltage            => true
  | .setSoftwareShutdownModeOff  => true
  | .getSoftwareShutdownMode     => true
  | .setAllLedScales _           => true
  | .writeLedMatrix              => true
  | .setLed0                     => true
  | .setLed1                     => true
  | .setLeds                     => true

end Sys2Proof
end

