-- ==== Sys2Proof/Decode.lean ====
section
/-! DEFINITION. The decoder of command words (30_encoding R50 to R57), total on every 40-bit word, the encoder written from the
same tables, and the host's reading of a table row's bits. -/

namespace Sys2Proof

/-- Why a word is no command (R57). Both are answered by Fault(IllegalCommand). -/
inductive DecodeError where
  /-- The opcode `CW[39:32]` is not one of the thirteen. -/
  | unassignedOpcode (opcode : Byte)
  /-- The opcode is assigned but a reserved bit of its format is 1. -/
  | reservedBitSet (opcode : Byte)
deriving DecidableEq, Repr

/-- The opcode field `CW[39:32]` (R50). -/
def opcodeField (w : CommandWord) : Byte := w.extractLsb 39 32

/-- Format N (R51): bits 31:0 are reserved. -/
def decodeFormatN (w : CommandWord) (i : Instr) : Except DecodeError Instr :=
  if w.extractLsb 31 0 = 0 then .ok i else .error (.reservedBitSet (opcodeField w))

/-- Format V (R52): bits 31:8 are reserved, v is bits 7:0. -/
def decodeFormatV (w : CommandWord) (f : Byte → Instr) : Except DecodeError Instr :=
  if w.extractLsb 31 8 = 0 then .ok (f (w.extractLsb 7 0)) else .error (.reservedBitSet (opcodeField w))

/-- Format L (R53): bits 31:25 and 7:0 are reserved, idx is bits 24:16, val is bits 15:8. -/
def decodeFormatL (w : CommandWord) (f : Nat → Byte → Instr) : Except DecodeError Instr :=
  if w.extractLsb 31 25 = 0 ∧ w.extractLsb 7 0 = 0 then .ok (f (w.extractLsb 24 16).toNat (w.extractLsb 15 8))
  else .error (.reservedBitSet (opcodeField w))

/-- Format P (R54): x is bits 31:28, y 27:24, r 23:16, g 15:8, b 7:0; no bit is reserved. -/
def decodeFormatP (w : CommandWord) (f : Nat → Nat → Byte → Byte → Byte → Instr) : Except DecodeError Instr :=
  .ok (f (w.extractLsb 31 28).toNat (w.extractLsb 27 24).toNat (w.extractLsb 23 16) (w.extractLsb 15 8)
    (w.extractLsb 7 0))

/-- The opcode map of R55: the command a word stands for, or the reason why it is illegal (R57). -/
def decode (w : CommandWord) : Except DecodeError Instr :=
  match (opcodeField w).toNat with
  | 0x01 => decodeFormatL w .setLed
  | 0x02 => decodeFormatP w .setPixel
  | 0x10 => decodeFormatV w (fun v => .selectPage v.toNat)
  | 0x11 => decodeFormatN w .reset
  | 0x12 => decodeFormatV w .setGlobalVoltage
  | 0x13 => decodeFormatN w .getGlobalVoltage
  | 0x14 => decodeFormatN w .setSoftwareShutdownModeOff
  | 0x15 => decodeFormatN w .getSoftwareShutdownMode
  | 0x16 => decodeFormatV w .setAllLedScales
  | 0x17 => decodeFormatN w .writeLedMatrix
  | 0x18 => decodeFormatN w .setLed0
  | 0x19 => decodeFormatN w .setLed1
  | 0x1A => decodeFormatN w .setLeds
  | _    => .error (.unassignedOpcode (opcodeField w))

/-- Format N as a word (R51). -/
def encodeFormatN (op : Byte) : CommandWord := op ++ (0 : BitVec 32)

/-- Format V as a word (R52). -/
def encodeFormatV (op v : Byte) : CommandWord := op ++ ((0 : BitVec 24) ++ v)

/-- Format L as a word (R53). -/
def encodeFormatL (op : Byte) (idx : Nat) (val : Byte) : CommandWord :=
  op ++ ((0 : BitVec 7) ++ (BitVec.ofNat 9 idx ++ (val ++ (0 : Byte))))

/-- Format P as a word (R54). -/
def encodeFormatP (op : Byte) (x y : Nat) (r g b : Byte) : CommandWord :=
  op ++ (BitVec.ofNat 4 x ++ (BitVec.ofNat 4 y ++ (r ++ (g ++ b))))

/-- The word of a well-formed command (R50 to R55). -/
def encode : Instr → CommandWord
  | .setLed idx val              => encodeFormatL 0x01 idx val
  | .setPixel x y r g b          => encodeFormatP 0x02 x y r g b
  | .selectPage p                => encodeFormatV 0x10 (BitVec.ofNat 8 p)
  | .reset                       => encodeFormatN 0x11
  | .setGlobalVoltage v          => encodeFormatV 0x12 v
  | .getGlobalVoltage            => encodeFormatN 0x13
  | .setSoftwareShutdownModeOff  => encodeFormatN 0x14
  | .getSoftwareShutdownMode     => encodeFormatN 0x15
  | .setAllLedScales scale       => encodeFormatV 0x16 scale
  | .writeLedMatrix              => encodeFormatN 0x17
  | .setLed0                     => encodeFormatN 0x18
  | .setLed1                     => encodeFormatN 0x19
  | .setLeds                     => encodeFormatN 0x1A

/-- The bits of a table row as a command word, or none when they do not fit in 40 bits. The word is never split into bytes
(R33): bit 0 of the row is bit 0 of the word (DESIGN CHOICE, log 2). -/
def tableWord (nbits w : Nat) : Option CommandWord :=
  if w % 2 ^ nbits < 2 ^ 40 then some (BitVec.ofNat 40 (w % 2 ^ nbits)) else none

/-- The command the decoder reads from a table row's bits. -/
def decodeTableWord (nbits w : Nat) : Option Instr :=
  match tableWord nbits w with
  | some cw => (decode cw).toOption
  | none    => none

end Sys2Proof
end

