-- ==== Sys2Proof/Machine/Params.lean ====
section
/-! DEFINITION. The values the open parameters of 00_scope R6 have in the machine after power-on. No instruction writes a
parameter, and a statement about every state holds for every value of them. -/

namespace Sys2Proof.Machine

/-- The default ROWMAP that the spec names and marks as taken from general knowledge (R6, R15, G1). PRESUMED, log 6. -/
def defaultRowMap : RowMap := ⟨#v[8, 5, 4, 3, 2, 1, 0, 7, 6], by decide⟩

/-- The default BUS_ADDR that the spec names and marks as taken from general knowledge (R6, R18, G3). PRESUMED, log 7. -/
def defaultBusAddr : BitVec 7 := 0x30

/-- The parameters after power-on: the spec's policy Invalidate (R6, R143, log 8) and the free scripts (log 9). -/
def defaultParams : Params where
  rowMap        := defaultRowMap
  busAddr       := defaultBusAddr
  cacheOnError  := .invalidate
  scriptSetLed0 := Config.scriptSetLed0
  scriptSetLed1 := Config.scriptSetLed1
  scriptSetLeds := Config.scriptSetLeds

/-- The check of R169, made once when a table is given to the machine: a table is refused (`none`) when an entry is above 8 or
when it is not a permutation. -/
def rowMapOfTable (t : Vector Nat Config.gridH) : Option RowMap :=
  if h : ∀ i : Fin Config.gridH, t[i] < Config.gridH then
    let v : Vector (Fin Config.gridH) Config.gridH := Vector.ofFn fun i => ⟨t[i], h i⟩
    if hn : v.toList.Nodup then some ⟨v, hn⟩ else none
  else none

end Sys2Proof.Machine
end

