-- ==== Sys2Proof/Machine/State.lean ====
section
/-! DEFINITION. The state of the block (10_state R10 to R25), the events and responses of its ports (00_scope R7), the reasons
a step can stop, and the state after hardware reset (R23). -/

namespace Sys2Proof.Machine

/-- The bytes of one sequence of the frame store, by position (R12, R13): addresses strictly rising, no entry equal to what an
unlisted position reads as, which is 0 ("created zero-initialized"). The canonical form is `Memory.wf`. -/
abbrev Memory := List Host.Cell

/-- The page cache (R16): six values. -/
inductive PageCache where
  | unknown
  | page (p : Page)
deriving DecidableEq, Repr

/-- The session flag (R17). -/
inductive Session where
  | noSession
  | active
deriving DecidableEq, Repr

/-- The kinds of fault the latch holds (R19, R140). -/
inductive FaultKind where
  | illegalCommand
  | noSession
  | rangeFault
deriving DecidableEq, Repr

/-- The response to a command (R58). -/
inductive Response where
  | ok
  | okData (d : Byte)
  | errTransport (e : TransportError)
  | fault (kind : FaultKind)
deriving DecidableEq, Repr

/-- What the outside presents to the block: a command word (R7, R50) or the one event that is not a command (R160). -/
inductive HostEvent where
  | command (w : CommandWord)
  | hardwareReset
deriving DecidableEq, Repr

/-- The state of the block, and of the model's three ports. -/
structure State where
  /-- S0 (R12). -/
  s0        : Memory
  /-- S1 (R13). -/
  s1        : Memory
  /-- The page cache (R16). -/
  cache     : PageCache
  /-- The session flag (R17). -/
  sess      : Session
  /-- The fault latch: its bit (R19). -/
  halted    : Bool
  /-- The fault latch: its kind, meaningful only when `halted` (R19). -/
  faultKind : FaultKind
  /-- The constants ROWMAP (R15), BUS_ADDR (R18), CACHE_ON_ERROR (R6) and the scripts (R127), which nothing writes. -/
  params    : Params
  /-- The wire trace, oldest entry first: model history (R8). -/
  trace     : List TraceEntry
  /-- The command port (R7): the event now presented, then those the host goes on to present. The model's own (log 1). -/
  port      : List HostEvent
  /-- The response port (R7, R58): the responses given, oldest first. The model's own (log 1). -/
  responses : List Response
  /-- The transport port (R7, R40): the answers already settled for the next transactions, next first; when none is listed
  the answer is the free value `Config.freeAnswer`. The model's own (log 3). -/
  answers   : List Answer
  /-- How many answers the oracle has been asked for: the counter of the free value. The model's own (log 3). -/
  asked     : Nat
deriving DecidableEq, Repr

/-- The reasons the machine can stop with a fault. (The block's own faults, R140, are no stop: they are next states.) -/
inductive Fault where
  /-- Raised by a transaction that the transport never answers (R46, U10: "stuck"): the block waits for ever and the command
  never responds. SAFE: the machine stops where the hardware waits (log 4). -/
  | transportNeverAnswers
deriving DecidableEq, Repr

/-- The reasons the machine can refuse an instruction. -/
inductive Refusal where
  /-- For an arm of `exec` without a meaning. No arm is without one, so nothing raises it. SAFE. -/
  | notModelled (mnemonic : String)
deriving DecidableEq, Repr

/-- The machine right after hardware reset (R23, R160) and power-on. `faultKind` is unspecified there: DESIGN CHOICE, log 10;
the parameters are those of `defaultParams` (logs 6 to 9); the ports are empty (logs 1 to 3). -/
def State.reset : State where
  s0        := []
  s1        := []
  cache     := .unknown
  sess      := .noSession
  halted    := false
  faultKind := .illegalCommand
  params    := defaultParams
  trace     := []
  port      := []
  responses := []
  answers   := []
  asked     := 0

end Sys2Proof.Machine
end

