-- ==== Sys2Proof/Machine/Flags.lean ====
section
/-! DEFINITION. The block has no status flags and no condition codes (10_state R20): the outcome of a command stands in its
response. Here is the coding of responses (30_encoding R58). -/

namespace Sys2Proof.Machine

/-- `kind[1:0]` of a FAULT response (R58). -/
def FaultKind.code : FaultKind → BitVec 2
  | .illegalCommand => 0
  | .noSession      => 1
  | .rangeFault     => 2

/-- `status[1:0]` of a response (R58). Code 3 is never produced. -/
def Response.status : Response → BitVec 2
  | .ok             => 0
  | .okData _       => 0
  | .errTransport _ => 1
  | .fault _        => 2

/-- What a response carries beside its status code (R58). -/
inductive ResponsePayload where
  | none
  | data (d : Byte)
  | error (e : TransportError)
  | kind (k : BitVec 2)
deriving DecidableEq, Repr

/-- The payload of a response (R58). -/
def Response.payload : Response → ResponsePayload
  | .ok             => .none
  | .okData d       => .data d
  | .errTransport e => .error e
  | .fault k        => .kind k.code

end Sys2Proof.Machine
end

