-- ==== Sys2Proof/Machine/Memory.lean ====
section
/-! DEFINITION. The frame store's sequences as lists of (position, byte) in one canonical form: reading, writing, the form. -/

namespace Sys2Proof.Machine

/-- What a position that is not listed reads as: the value of every byte after hardware reset (R12, R13, R23). -/
def unlistedByte : Byte := 0

/-- The byte at a position. -/
def Memory.read : Memory → Nat → Byte
  | [], _ => unlistedByte
  | (b, v) :: m, a => if a = b then v else Memory.read m a

/-- The memory with one byte stored, in canonical form: storing the unlisted value takes the entry away. -/
def Memory.write : Memory → Nat → Byte → Memory
  | [], a, v => if v = unlistedByte then [] else [(a, v)]
  | (b, u) :: m, a, v =>
    if a < b then (if v = unlistedByte then (b, u) :: m else (a, v) :: (b, u) :: m)
    else if a = b then (if v = unlistedByte then m else (a, v) :: m)
    else (b, u) :: Memory.write m a v

/-- The canonical form: positions strictly rising, no entry equal to the unlisted value. -/
def Memory.wf : Memory → Bool
  | [] => true
  | (a, v) :: m => decide (v ≠ unlistedByte) && (m.all fun c => decide (a < c.1)) && Memory.wf m

/-- Every listed position is a data position: not the command byte's, and inside a sequence of `len` bytes (R12 to R14). -/
def Memory.dataOnly (len : Nat) (m : Memory) : Bool :=
  m.all fun c => decide (0 < c.1) && decide (c.1 < len)

end Sys2Proof.Machine
end

