-- ==== Sys2Proof/Machine/Operands.lean ====
section
/-! DEFINITION. The operand forms: the mapping from pixels to channels and from channels to positions of the frame store
(41_mapper R70 to R73, 20_memory R31), and the byte lists of the transactions (30_encoding R59, 44_bulk_ops R120). -/

namespace Sys2Proof.Machine

/-! ### Channels and positions -/

/-- A channel index, in [0, 357) (R30). -/
abbrev Channel := Fin Config.nchan

/-- The two sequences of the frame store (R12, R13). -/
inductive Sequence where
  | s0
  | s1
deriving DecidableEq, Repr

/-- The number of bytes of a sequence (R5). -/
def Sequence.len : Sequence → Nat
  | .s0 => Config.seq0Len
  | .s1 => Config.seq1Len

/-- `Loc(k)`: the sequence and the position of a channel (R31). -/
def loc (k : Channel) : Sequence × Nat :=
  if k.val < Config.split then (.s0, k.val + 1) else (.s1, k.val - Config.split + 1)

/-! ### Pixels -/

/-- `RowOf(y) = ROWMAP[y]` (R70). -/
def rowOf (m : RowMap) (y : Fin Config.gridH) : Fin Config.gridH := m.entries[y]

/-- `Slot(x, row)`: the pixel slot of a column in a physical row (R71). -/
def slot (x row : Nat) : Nat :=
  if x < Config.blk0Cols then x + Config.blk0Stride * row
  else x + Config.blk1Offset + Config.blk1Stride * row

/-- `Base(x, row)`: the first channel of a pixel slot (R72). -/
def base (x row : Nat) : Nat := 3 * slot x row

/-- The bound of R78: every channel of a pixel in range is a channel. -/
theorem base_add_lt_nchan {x row i : Nat} (hx : x < Config.gridW) (hr : row < Config.gridH) (hi : i < 3) :
    base x row + i < Config.nchan := by
  unfold base slot
  simp only [Config.gridW, Config.gridH, Config.nchan, Config.blk0Cols, Config.blk0Stride, Config.blk1Offset,
    Config.blk1Stride] at *
  split <;> omega

/-- Channel `base + i` of the pixel (x, y), for i in 0..2 (R75). -/
def pixelChannel (m : RowMap) (x : Fin Config.gridW) (y : Fin Config.gridH) (i : Fin 3) : Channel :=
  ⟨base x.val (rowOf m y).val + i.val, base_add_lt_nchan x.isLt (rowOf m y).isLt i.isLt⟩

/-- `Order(x, r, g, b)`: the three bytes in ascending channel index (R73). -/
def order (x : Nat) (r g b : Byte) : Byte × Byte × Byte :=
  if x % 2 = 1 ∨ x = Config.excCol then (g, r, b) else (b, g, r)

/-! ### Byte lists of the transactions (R59) -/

/-- The unlock write. -/
def unlockBytes : List Byte := [Config.unlockReg, Config.unlockKey]

/-- The page-select write. -/
def pageSelectBytes (p : Page) : List Byte := [Config.pageSelReg, BitVec.ofNat 8 p.val]

/-- The software-reset write. -/
def softwareResetBytes : List Byte := [Config.resetReg, Config.resetKey]

/-- The write of the global current-limit register. -/
def setGlobalCurrentBytes (v : Byte) : List Byte := [Config.gccReg, v]

/-- What the read of the global current-limit register sends. -/
def getGlobalCurrentBytes : List Byte := [Config.gccReg]

/-- What the read of the configuration register sends. -/
def readConfigBytes : List Byte := [Config.cfgReg]

/-- The write-back of the configuration register after reading `d`: bit 0 set, bits 7..1 as read (R112). -/
def writeConfigBytes (d : Byte) : List Byte := [Config.cfgReg, d ||| Config.shutdownOffBit]

/-- `ScaleSeq0(scale)` (R120): 181 bytes. -/
def scaleSeq0 (scale : Byte) : List Byte := Config.commandByte :: List.replicate (Config.seq0Len - 1) scale

/-- `ScaleSeq1(scale)` (R120): 178 bytes. -/
def scaleSeq1 (scale : Byte) : List Byte := Config.commandByte :: List.replicate (Config.seq1Len - 1) scale

/-- The bytes of a script's write (R127). -/
def Payload.bytes (b : Payload) : List Byte := b.head :: b.tail

/-- A script as the list of (page, bytes) that RunScript goes through (R127). -/
def scriptPairs (c : Script) : List (Page × List Byte) :=
  (0, Payload.bytes c.first) :: (c.page1.map fun b => (1, Payload.bytes b)) ++ (c.page2.map fun b => (2, Payload.bytes b))
    ++ (c.page3.map fun b => (3, Payload.bytes b))

/-- The byte of an `ok` read's data that a command looks at, `D[0]` (R111 to R113). -/
def firstByte (d : ReadData) : Byte := d[0]

end Sys2Proof.Machine
end

