-- ==== Sys2Proof/Machine/Ops.lean ====
section
/-! DEFINITION. The named operations every meaning is written over: the frame store primitives (20_memory R32), responses,
the fault entry and the error entry (60_exceptions R143, R144), the order of the checks (R145), the transactions (R90, R91),
the page-select sequence (R93), scripts (R127), hardware reset (R160) and the command port. There is no return from a fault or
an error, because nothing is saved by either (R147, R148). -/

namespace Sys2Proof.Machine

/-! ### Frame store -/

/-- One sequence of the frame store. -/
def State.memory (s : State) : Sequence → Memory
  | .s0 => s.s0
  | .s1 => s.s1

/-- The state with one byte of one sequence stored. -/
def State.storeByte (s : State) (q : Sequence) (a : Nat) (v : Byte) : State :=
  match q with
  | .s0 => { s with s0 := s.s0.write a v }
  | .s1 => { s with s1 := s.s1.write a v }

/-- The byte at a position of a sequence. -/
def State.byteAt (s : State) (q : Sequence) (a : Nat) : Byte := (s.memory q).read a

/-- `MemRead(k, 1)` (R32): no command uses it; read-back statements do. -/
def memRead (k : Channel) (s : State) : Byte := s.byteAt (loc k).1 (loc k).2

/-- `MemWrite(k, 1, v)` (R32): the single point where the two-sequence split is resolved. -/
def memWrite (k : Channel) (v : Byte) (s : State) : State := s.storeByte (loc k).1 (loc k).2 v

/-- The three stores of SET_PIXEL (R75). -/
def writePixel (x : Fin Config.gridW) (y : Fin Config.gridH) (r g b : Byte) (s : State) : State :=
  memWrite (pixelChannel s.params.rowMap x y 2) (order x.val r g b).2.2
    (memWrite (pixelChannel s.params.rowMap x y 1) (order x.val r g b).2.1
      (memWrite (pixelChannel s.params.rowMap x y 0) (order x.val r g b).1 s))

/-- A whole sequence, position 0 first, command byte included (R122). -/
def State.sequenceBytes (s : State) (q : Sequence) : List Byte := (List.range q.len).map (s.byteAt q)

/-! ### Responses, faults, the order of the checks -/

/-- The command gives its response and leaves the command port (R7, R58). -/
def State.respond (s : State) (r : Response) : State :=
  { s with responses := s.responses ++ [r], port := s.port.tail }

/-- The fault entry (R144): the latch is set, the command ends with FAULT(kind). -/
def raiseFault (kind : FaultKind) (s : State) : Host.Outcome State Fault Refusal :=
  .next (({ s with halted := true, faultKind := kind } : State).respond (.fault kind))

/-- Steps 1 of R145 (R148): while halted every command is answered with the latched fault; otherwise `k` goes on. -/
def unlessHalted (s : State) (k : State → Host.Outcome State Fault Refusal) : Host.Outcome State Fault Refusal :=
  if s.halted then .next (s.respond (.fault s.faultKind)) else k s

/-- The session check, step 3 of R145 (R96). -/
def requireSession (s : State) (k : State → Host.Outcome State Fault Refusal) : Host.Outcome State Fault Refusal :=
  match s.sess with
  | .noSession => raiseFault .noSession s
  | .active    => k s

/-- Step 2 of R145 for a word that is no command (R57, R142). -/
def illegalWord (s : State) : Host.Outcome State Fault Refusal := unlessHalted s (raiseFault .illegalCommand)

/-! ### Sequences of transactions -/

/-- Where a sequence of a command's steps has got to: done with a result, aborted by a transport error (R92), or waiting for an
answer that never comes (R46). -/
inductive Progress (α : Type) where
  | done (a : α) (s : State)
  | aborted (e : TransportError) (s : State)
  | silent

/-- The next step of a command: it runs only when the steps before it are done (R92). -/
def Progress.andThen {α β : Type} (p : Progress α) (k : α → State → Progress β) : Progress β :=
  match p with
  | .done a s    => k a s
  | .aborted e s => .aborted e s
  | .silent      => .silent

/-- The end of a command's steps: its response, or ERR_TRANSPORT(e) (R92, R143), or no response ever (R46). -/
def Progress.finish (p : Progress Response) : Host.Outcome State Fault Refusal :=
  match p with
  | .done r s    => .next (s.respond r)
  | .aborted e s => .next (s.respond (.errTransport e))
  | .silent      => .fault .transportNeverAnswers

/-- The oracle's answer to a transaction (R40): the next settled answer, or the free value. -/
def oracleAnswer (t : Transaction) (s : State) : Answer :=
  match s.answers with
  | []     => Config.freeAnswer s.asked s.trace t
  | a :: _ => a

/-- The transaction and its outcome go to the wire trace (R90, R91); the oracle has been asked once more. -/
def State.recordTransaction (s : State) (t : Transaction) (o : BusOutcome) : State :=
  { s with trace := s.trace ++ [⟨t, o⟩], answers := s.answers.tail, asked := s.asked + 1 }

/-- The error entry for a transport error (R143): the cache as CACHE_ON_ERROR says, nothing else. -/
def errorEntry (s : State) : State :=
  match s.params.cacheOnError with
  | .invalidate => { s with cache := .unknown }
  | .keep       => s

/-- `BusWrite(B)` (R90). -/
def busWrite (bytes : List Byte) (s : State) : Progress Unit :=
  match oracleAnswer (.write s.params.busAddr bytes) s with
  | .ok _  => .done () (s.recordTransaction (.write s.params.busAddr bytes) .ok)
  | .err e => .aborted e (errorEntry (s.recordTransaction (.write s.params.busAddr bytes) (.err e)))
  | .never => .silent

/-- `BusWriteRead(B, READ_LEN)` (R91). -/
def busWriteRead (bytes : List Byte) (s : State) : Progress ReadData :=
  match oracleAnswer (.writeRead s.params.busAddr bytes Config.readLen) s with
  | .ok d  => .done d (s.recordTransaction (.writeRead s.params.busAddr bytes Config.readLen) (.okData d.toList))
  | .err e =>
    .aborted e (errorEntry (s.recordTransaction (.writeRead s.params.busAddr bytes Config.readLen) (.err e)))
  | .never => .silent

/-- `EnsurePage(p)` (R93): nothing on a cache hit; otherwise unlock, select, and the cache is updated. -/
def ensurePage (p : Page) (s : State) : Progress Unit :=
  if s.cache = .page p then .done () s
  else
    ((busWrite unlockBytes s).andThen fun _ s => busWrite (pageSelectBytes p) s).andThen fun _ s =>
      .done () { s with cache := .page p }

/-- `EnsurePage(p)` and then one write on that page. -/
def writeOnPage (p : Page) (bytes : List Byte) (s : State) : Progress Unit :=
  (ensurePage p s).andThen fun _ s => busWrite bytes s

/-- `EnsurePage(p)` and then one write-read on that page. -/
def readOnPage (p : Page) (bytes : List Byte) (s : State) : Progress ReadData :=
  (ensurePage p s).andThen fun _ s => busWriteRead bytes s

/-- `RunScript` (R127). -/
def runScript : List (Page × List Byte) → State → Progress Unit
  | [], s => .done () s
  | (p, bytes) :: rest, s => (writeOnPage p bytes s).andThen fun _ s => runScript rest s

/-- The response OK once the steps are done. -/
def respondOk (p : Progress Unit) : Host.Outcome State Fault Refusal :=
  (p.andThen fun _ s => .done Response.ok s).finish

/-- The response OK_DATA(D[0]) once the read is done. -/
def respondData (p : Progress ReadData) : Host.Outcome State Fault Refusal :=
  (p.andThen fun d s => .done (Response.okData (firstByte d)) s).finish

/-! ### The port -/

/-- The event now presented on the command port, if there is one (R7). -/
def fetch (s : State) : Option HostEvent := s.port.head?

/-- Hardware reset (R160): every piece of state to the value of R23, the constants unaffected, no transaction. The event leaves
the port; the oracle is outside the block and is not reset (log 11). -/
def hardwareReset (s : State) : State :=
  { State.reset with params := s.params, port := s.port.tail, answers := s.answers, asked := s.asked }

end Sys2Proof.Machine
end

