-- ==== Sys2Proof/Machine/BulkOps.lean ====
section
/-! DEFINITION. Unit P, the bulk commands (44_bulk_ops). -/

namespace Sys2Proof.Machine

/-- SET_ALL_LED_SCALES scale (R121): the payloads are temporaries, the frame store is not touched (R120). -/
def execSetAllLedScales (scale : Byte) (s : State) : Host.Outcome State Fault Refusal :=
  unlessHalted s fun s => requireSession s fun s =>
    respondOk ((writeOnPage 2 (scaleSeq0 scale) s).andThen fun _ s => writeOnPage 3 (scaleSeq1 scale) s)

/-- WRITE_LED_MATRIX (R123): both sequences whole, S0 on page 0, S1 on page 1. -/
def execWriteLedMatrix (s : State) : Host.Outcome State Fault Refusal :=
  unlessHalted s fun s => requireSession s fun s =>
    respondOk ((writeOnPage 0 (s.sequenceBytes .s0) s).andThen fun _ s => writeOnPage 1 (s.sequenceBytes .s1) s)

/-- SET_LED_0 (R124). -/
def execSetLed0 (s : State) : Host.Outcome State Fault Refusal :=
  unlessHalted s fun s => requireSession s fun s =>
    respondOk (runScript (scriptPairs s.params.scriptSetLed0) s)

/-- SET_LED_1 (R125). -/
def execSetLed1 (s : State) : Host.Outcome State Fault Refusal :=
  unlessHalted s fun s => requireSession s fun s =>
    respondOk (runScript (scriptPairs s.params.scriptSetLed1) s)

/-- SET_LEDS (R126). -/
def execSetLeds (s : State) : Host.Outcome State Fault Refusal :=
  unlessHalted s fun s => requireSession s fun s =>
    respondOk (runScript (scriptPairs s.params.scriptSetLeds) s)

end Sys2Proof.Machine
end

