-- ==== Sys2Proof/Machine/ConfigOps.lean ====
section
/-! DEFINITION. Unit P, the commands of the configuration page (43_config_ops). -/

namespace Sys2Proof.Machine

/-- SET_GLOBAL_VOLTAGE v (R110). -/
def execSetGlobalVoltage (v : Byte) (s : State) : Host.Outcome State Fault Refusal :=
  unlessHalted s fun s => requireSession s fun s =>
    respondOk (writeOnPage Config.cfgPage (setGlobalCurrentBytes v) s)

/-- GET_GLOBAL_VOLTAGE (R111). -/
def execGetGlobalVoltage (s : State) : Host.Outcome State Fault Refusal :=
  unlessHalted s fun s => requireSession s fun s =>
    respondData (readOnPage Config.cfgPage getGlobalCurrentBytes s)

/-- SET_SOFTWARE_SHUTDOWN_MODE_OFF (R112): read, set bit 0, write back, with one page check before the read and none between. -/
def execSetSoftwareShutdownModeOff (s : State) : Host.Outcome State Fault Refusal :=
  unlessHalted s fun s => requireSession s fun s =>
    respondOk ((readOnPage Config.cfgPage readConfigBytes s).andThen fun d s =>
      busWrite (writeConfigBytes (firstByte d)) s)

/-- GET_SOFTWARE_SHUTDOWN_MODE (R113): the whole byte read. -/
def execGetSoftwareShutdownMode (s : State) : Host.Outcome State Fault Refusal :=
  unlessHalted s fun s => requireSession s fun s =>
    respondData (readOnPage Config.cfgPage readConfigBytes s)

end Sys2Proof.Machine
end

