-- ==== Sys2Proof/Machine/Mapper.lean ====
section
/-! DEFINITION. Unit M (41_mapper): SET_LED and SET_PIXEL. Neither needs a session or issues a transaction (R79). -/

namespace Sys2Proof.Machine

/-- SET_LED idx, val (R74). -/
def execSetLed (idx : Nat) (val : Byte) (s : State) : Host.Outcome State Fault Refusal :=
  unlessHalted s fun s =>
    if h : idx < Config.nchan then .next ((memWrite ⟨idx, h⟩ val s).respond .ok)
    else raiseFault .rangeFault s

/-- SET_PIXEL x, y, r, g, b (R75). -/
def execSetPixel (x y : Nat) (r g b : Byte) (s : State) : Host.Outcome State Fault Refusal :=
  unlessHalted s fun s =>
    if h : x < Config.gridW ∧ y < Config.gridH then .next ((writePixel ⟨x, h.1⟩ ⟨y, h.2⟩ r g b s).respond .ok)
    else raiseFault .rangeFault s

end Sys2Proof.Machine
end

