-- ==== Sys2Proof/Machine/PageProtocol.lean ====
section
/-! DEFINITION. Unit P, page protocol (42_page_protocol): SELECT_PAGE and RESET. -/

namespace Sys2Proof.Machine

/-- SELECT_PAGE p (R94). -/
def execSelectPage (p : Nat) (s : State) : Host.Outcome State Fault Refusal :=
  unlessHalted s fun s => requireSession s fun s =>
    if h : p < Config.npages then respondOk (ensurePage ⟨p, h⟩ s) else raiseFault .rangeFault s

/-- RESET, also CONSTRUCT (R95, R62). It needs no session (R96) and does not clear the fault latch. -/
def execReset (s : State) : Host.Outcome State Fault Refusal :=
  unlessHalted s fun s =>
    respondOk ((writeOnPage Config.cfgPage softwareResetBytes { s with cache := .unknown, sess := .noSession }).andThen
      fun _ s => .done () { s with sess := .active })

end Sys2Proof.Machine
end

