-- ==== Sys2Proof/Machine/Dispatch.lean ====
section
/-! DEFINITION. The meaning of each command: one arm per constructor of Instr, each one direct call. -/

namespace Sys2Proof.Machine

def exec (i : Instr) (s : State) : Host.Outcome State Fault Refusal :=
  match i with
  | .setLed idx val => Sys2Proof.Machine.execSetLed idx val s
  | .setPixel x y r g b => Sys2Proof.Machine.execSetPixel x y r g b s
  | .selectPage p => Sys2Proof.Machine.execSelectPage p s
  | .reset => Sys2Proof.Machine.execReset s
  | .setGlobalVoltage v => Sys2Proof.Machine.execSetGlobalVoltage v s
  | .getGlobalVoltage => Sys2Proof.Machine.execGetGlobalVoltage s
  | .setSoftwareShutdownModeOff => Sys2Proof.Machine.execSetSoftwareShutdownModeOff s
  | .getSoftwareShutdownMode => Sys2Proof.Machine.execGetSoftwareShutdownMode s
  | .setAllLedScales scale => Sys2Proof.Machine.execSetAllLedScales scale s
  | .writeLedMatrix => Sys2Proof.Machine.execWriteLedMatrix s
  | .setLed0 => Sys2Proof.Machine.execSetLed0 s
  | .setLed1 => Sys2Proof.Machine.execSetLed1 s
  | .setLeds => Sys2Proof.Machine.execSetLeds s

end Sys2Proof.Machine
end

