-- ==== Sys2Proof/Machine/Step.lean ====
section
/-! DEFINITION. One step of the block: the event presented on the command port, from its presentation to its response. -/

namespace Sys2Proof.Machine

/-- One step. With no event presented the block has nothing to do (log 1); a hardware reset is R160; a command word that
decodes runs its command, any other is illegal (R57, R145). -/
def step (s : State) : Host.Outcome State Fault Refusal :=
  match fetch s with
  | none                => .next s
  | some .hardwareReset => .next (hardwareReset s)
  | some (.command w)   =>
    match decode w with
    | .ok i    => exec i s
    | .error _ => illegalWord s

/-- The state with a table row's bits presented on the command port as the next command word (log 2). -/
def State.withFetchWord (s : State) (nbits w : Nat) : State :=
  { s with port := .command (BitVec.ofNat 40 (w % 2 ^ nbits)) :: s.port }

end Sys2Proof.Machine
end

