-- ==== Sys2Proof/Safety.lean ====
section
/-! DEFINITION. The terms the statements are written in: what a transaction looks like on the wire trace, what it means that the
transport answers, and the properties that hold of every safe run. -/

namespace Sys2Proof

/-! ### Words about messages, commands and parameters -/

/-- The outcome is an error. -/
def BusOutcome.isErr : BusOutcome → Bool
  | .err _    => true
  | .ok       => false
  | .okData _ => false

/-- The entry is a page-select write (its first byte is the page-select register's address). -/
def TraceEntry.isPageSelect (t : TraceEntry) : Bool :=
  match t.transaction with
  | .write _ (reg :: _) => decide (reg = 0xFD)
  | .write _ []         => false
  | .writeRead _ _ _    => false

/-- The entry is an unlock write that was answered `ok`. -/
def TraceEntry.isUnlock (t : TraceEntry) : Bool :=
  match t.transaction with
  | .write _ bytes   => decide (bytes = [0xFE, 0xC5]) && decide (t.outcome = .ok)
  | .writeRead _ _ _ => false

/-- The answer is `ok`. -/
def Answer.isOk : Answer → Bool
  | .ok _  => true
  | .err _ => false
  | .never => false

/-- The commands of unit M (R55). -/
def Instr.isUnitM : Instr → Bool
  | .setLed _ _                 => true
  | .setPixel _ _ _ _ _         => true
  | .selectPage _               => false
  | .reset                      => false
  | .setGlobalVoltage _         => false
  | .getGlobalVoltage           => false
  | .setSoftwareShutdownModeOff => false
  | .getSoftwareShutdownMode    => false
  | .setAllLedScales _          => false
  | .writeLedMatrix             => false
  | .setLed0                    => false
  | .setLed1                    => false
  | .setLeds                    => false

/-- The commands that need a session: unit P's but RESET (R96). -/
def Instr.needsSession (i : Instr) : Bool := !i.isUnitM && decide (i ≠ .reset)

/-- The operands are in their documented ranges (R57, R140). -/
def Instr.inRange : Instr → Bool
  | .setLed idx _               => decide (idx < 357)
  | .setPixel x y _ _ _         => decide (x < 13) && decide (y < 9)
  | .selectPage p               => decide (p < 5)
  | .reset                      => true
  | .setGlobalVoltage _         => true
  | .getGlobalVoltage           => true
  | .setSoftwareShutdownModeOff => true
  | .getSoftwareShutdownMode    => true
  | .setAllLedScales _          => true
  | .writeLedMatrix             => true
  | .setLed0                    => true
  | .setLed1                    => true
  | .setLeds                    => true

/-- No script writes to the page-select register behind the page cache's back (its payloads are data of pages, R127). -/
def Params.scriptsPlain (c : Params) : Prop :=
  ∀ k ∈ [c.scriptSetLed0, c.scriptSetLed1, c.scriptSetLeds],
    ∀ b ∈ k.first :: (k.page1 ++ k.page2 ++ k.page3), b.head ≠ 0xFD

/-- The rows of the opcode map as (mask, match): a word `w` selects a row when `w &&& mask = match` (R55). -/
def opcodeRows : List (CommandWord × CommandWord) :=
  [(0xFFFE0000FF, 0x0100000000), (0xFF00000000, 0x0200000000), (0xFFFFFFFF00, 0x1000000000),
   (0xFFFFFFFFFF, 0x1100000000), (0xFFFFFFFF00, 0x1200000000), (0xFFFFFFFFFF, 0x1300000000),
   (0xFFFFFFFFFF, 0x1400000000), (0xFFFFFFFFFF, 0x1500000000), (0xFFFFFFFF00, 0x1600000000),
   (0xFFFFFFFFFF, 0x1700000000), (0xFFFFFFFFFF, 0x1800000000), (0xFFFFFFFFFF, 0x1900000000),
   (0xFFFFFFFFFF, 0x1A00000000)]

end Sys2Proof

namespace Sys2Proof.Machine

/-! ### Transactions and their entries on the wire trace -/

/-- The trace entry of a write transaction of `s`'s block that was answered `ok`. -/
def okWrite (s : State) (bytes : List Byte) : TraceEntry := ⟨.write s.params.busAddr bytes, .ok⟩

/-- The trace entry of a write transaction of `s`'s block that was answered `err(e)`. -/
def errWrite (s : State) (bytes : List Byte) (e : TransportError) : TraceEntry := ⟨.write s.params.busAddr bytes, .err e⟩

/-- The trace entry of a one-byte read of a register that was answered `ok` with `d`. -/
def okRead (s : State) (reg d : Byte) : TraceEntry := ⟨.writeRead s.params.busAddr [reg] 1, .okData [d]⟩

/-- The trace entry of a one-byte read of a register that was answered `err(e)`. -/
def errRead (s : State) (reg : Byte) (e : TransportError) : TraceEntry := ⟨.writeRead s.params.busAddr [reg] 1, .err e⟩

/-- What EnsurePage(p) adds to the trace of `s` when its writes are answered `ok` (R93): nothing on a cache hit, else the unlock
write and the page-select write. -/
def selectEntries (s : State) (p : Page) : List TraceEntry :=
  if s.cache = .page p then [] else [okWrite s [0xFE, 0xC5], okWrite s [0xFD, BitVec.ofNat 8 p.val]]

/-- `s` after transactions that left these entries on the trace, each answered by the next settled answer. -/
def State.advance (s : State) (entries : List TraceEntry) : State :=
  { s with
    trace   := s.trace ++ entries
    answers := s.answers.drop entries.length
    asked   := s.asked + entries.length }

/-- What RunScript adds to the trace when its writes are answered `ok` and the cache is `c` at its start (R127): for each
pair the entries of EnsurePage, then the write. -/
def scriptEntries (s : State) : PageCache → List (Page × List Byte) → List TraceEntry
  | _, [] => []
  | c, (p, bytes) :: rest =>
    (if c = .page p then [] else [okWrite s [0xFE, 0xC5], okWrite s [0xFD, BitVec.ofNat 8 p.val]]) ++
      okWrite s bytes :: scriptEntries s (.page p) rest

/-- The cache after RunScript: the page of the script's last pair (R124). -/
def scriptCache : PageCache → List (Page × List Byte) → PageCache
  | c, [] => c
  | _, (p, _) :: rest => scriptCache (.page p) rest

/-- At most how many transactions a command issues (R90 to R127). -/
def maxTransactions (c : Params) : Instr → Nat
  | .setLed _ _                 => 0
  | .setPixel _ _ _ _ _         => 0
  | .selectPage _               => 2
  | .reset                      => 3
  | .setGlobalVoltage _         => 3
  | .getGlobalVoltage           => 3
  | .setSoftwareShutdownModeOff => 4
  | .getSoftwareShutdownMode    => 3
  | .setAllLedScales _          => 6
  | .writeLedMatrix             => 6
  | .setLed0                    => 3 * (scriptPairs c.scriptSetLed0).length
  | .setLed1                    => 3 * (scriptPairs c.scriptSetLed1).length
  | .setLeds                    => 3 * (scriptPairs c.scriptSetLeds).length

/-- The wire vocabulary (R59): the transactions a command may issue when it starts in `s`. Every transaction goes to BUS_ADDR. -/
def wireVocabulary (s : State) : Instr → Transaction → Prop
  | i, t => t = .write s.params.busAddr [0xFE, 0xC5] ∨
      (∃ p : Page, t = .write s.params.busAddr [0xFD, BitVec.ofNat 8 p.val]) ∨
      (i = .reset ∧ t = .write s.params.busAddr [0x3F, 0xAE]) ∨
      (∃ v, i = .setGlobalVoltage v ∧ t = .write s.params.busAddr [0x01, v]) ∨
      (i = .getGlobalVoltage ∧ t = .writeRead s.params.busAddr [0x01] 1) ∨
      ((i = .getSoftwareShutdownMode ∨ i = .setSoftwareShutdownModeOff) ∧ t = .writeRead s.params.busAddr [0x00] 1) ∨
      (i = .setSoftwareShutdownModeOff ∧ ∃ d : Byte, t = .write s.params.busAddr [0x00, d ||| 0x01]) ∨
      (i = .writeLedMatrix ∧ (t = .write s.params.busAddr (s.sequenceBytes .s0) ∨
        t = .write s.params.busAddr (s.sequenceBytes .s1))) ∨
      (∃ c, i = .setAllLedScales c ∧ (t = .write s.params.busAddr (0 :: List.replicate 180 c) ∨
        t = .write s.params.busAddr (0 :: List.replicate 177 c))) ∨
      (∃ k b, ((i = .setLed0 ∧ k = s.params.scriptSetLed0) ∨ (i = .setLed1 ∧ k = s.params.scriptSetLed1) ∨
        (i = .setLeds ∧ k = s.params.scriptSetLeds)) ∧ b ∈ scriptPairs k ∧ t = .write s.params.busAddr b.2)

/-! ### What the transport does -/

/-- The next `n` answers of the transport are settled and each is `ok`. -/
def answersOk (s : State) (n : Nat) : Prop :=
  n ≤ s.answers.length ∧ ∀ a ∈ s.answers.take n, a.isOk = true

/-- The next `n` answers of the transport are settled and each comes (`ok` or an error): the assumption of R46. -/
def answersCome (s : State) (n : Nat) : Prop :=
  n ≤ s.answers.length ∧ .never ∉ s.answers.take n

/-- The next `n` answers are each `ok`, and the one after them is `a`. -/
def answersOkThen (s : State) (n : Nat) (a : Answer) : Prop :=
  answersOk s n ∧ s.answers[n]? = some a

/-! ### When a command runs -/

/-- The block is not halted: unit M's commands and RESET are not turned away (R145). -/
def State.running (s : State) : Prop := s.halted = false

/-- Not halted and with a session: the commands of unit P are not turned away (R145, R96). -/
def State.ready (s : State) : Prop := s.halted = false ∧ s.sess = .active

/-! ### Properties of every safe run -/

/-- The frame store is in its canonical form and only data positions are listed, so that each command byte reads 0 (R14). -/
def State.frameOk (s : State) : Prop :=
  s.s0.wf = true ∧ s.s1.wf = true ∧ s.s0.dataOnly Config.seq0Len = true ∧ s.s1.dataOnly Config.seq1Len = true

/-- The page cache is the last page the block selected successfully (R22, R45): the trace holds that unlock and select, both
`ok`, no page select after it succeeded, and under Invalidate no transaction after it failed. -/
def State.cacheBacked (s : State) : Prop :=
  ∀ p, s.cache = .page p → ∃ before after,
    s.trace = before ++ [okWrite s [0xFE, 0xC5], okWrite s [0xFD, BitVec.ofNat 8 p.val]] ++ after ∧
    (∀ t ∈ after, t.isPageSelect = true → t.outcome.isErr = true) ∧
    (s.params.cacheOnError = .invalidate → ∀ t ∈ after, t.outcome.isErr = false)

/-- Every page-select write on the trace comes right after an unlock write that succeeded (R152, R171). -/
def State.selectsUnlocked (s : State) : Prop :=
  ∀ before t after, s.trace = before ++ t :: after → t.isPageSelect = true →
    ∃ before' u, before = before' ++ [u] ∧ u.isUnlock = true

/-- A session exists only after a RESET that completed (R17): the trace holds its three writes, each `ok`. -/
def State.sessionBacked (s : State) : Prop :=
  s.sess = .active → ∃ before after,
    s.trace = before ++ [okWrite s [0xFE, 0xC5], okWrite s [0xFD, 0x04], okWrite s [0x3F, 0xAE]] ++ after

end Sys2Proof.Machine
end

