-- ==== Sys2Proof/Certificates/Slice0/Obligations.lean ====
section
/-! DEFINITION. The statements about the model, one `Obligations.<Name>` each. -/

open Sys2Proof Sys2Proof.Machine

/-! ### Encoding (30_encoding) -/

/-- Every well-formed command is read back from its word, with every operand at every value its field admits (R50 to R56). -/
def Obligations.EveryCommandDecodesBack : Prop :=
  ∀ i : Instr, i.wellFormed = true → decode (encode i) = .ok i

/-- A word that decodes is the word of the command it decodes to: no other word stands for it, so reserved bits are 0 (R51 to
R57). -/
def Obligations.EveryLegalWordEncodesBack : Prop :=
  ∀ (w : CommandWord) (i : Instr), decode w = .ok i → i.wellFormed = true ∧ encode i = w

/-- A word is a command when it selects one of the thirteen rows by mask and match, and illegal otherwise (R55, R57). -/
def Obligations.LegalWordsSelectATableRow : Prop :=
  ∀ w : CommandWord, (∃ i, decode w = .ok i) ↔ ∃ row ∈ opcodeRows, w &&& row.1 = row.2

/-- A few words, written out from the formats, decode to the commands they stand for (R51 to R55). -/
def Obligations.SampleWordsDecode : Prop :=
  decode 0x0101647F00 = .ok (.setLed 356 0x7F) ∧ decode 0x0291112233 = .ok (.setPixel 9 1 0x11 0x22 0x33) ∧
  decode 0x1000000004 = .ok (.selectPage 4) ∧ decode 0x1100000000 = .ok .reset ∧
  decode 0x1200000080 = .ok (.setGlobalVoltage 0x80) ∧ decode 0x1400000000 = .ok .setSoftwareShutdownModeOff ∧
  decode 0x1600000040 = .ok (.setAllLedScales 0x40) ∧ decode 0x1A00000000 = .ok .setLeds ∧
  decode 0x1100000001 = .error (.reservedBitSet 0x11) ∧ decode 0x1B00000000 = .error (.unassignedOpcode 0x1B)

/-- The coding of responses (R58): status codes and fault kinds; status code 3 is never produced. -/
def Obligations.ResponseCodes : Prop :=
  (∀ d e k, Response.status .ok = 0 ∧ Response.status (.okData d) = 0 ∧ Response.status (.errTransport e) = 1 ∧
    Response.status (.fault k) = 2) ∧
  (∀ r : Response, r.status ≠ 3) ∧
  FaultKind.code .illegalCommand = 0 ∧ FaultKind.code .noSession = 1 ∧ FaultKind.code .rangeFault = 2 ∧
  (∀ d e k, Response.payload .ok = .none ∧ Response.payload (.okData d) = .data d ∧
    Response.payload (.errTransport e) = .error e ∧ Response.payload (.fault k) = .kind k.code)

/-! ### One step, hardware reset, the fault latch -/

/-- When the presented word decodes to `i`, one step is `exec i` of that state: nothing is added around it. -/
def Obligations.StepRunsTheDecodedCommand : Prop :=
  ∀ (s : State) (w : CommandWord) (rest : List HostEvent) (i : Instr),
    s.port = .command w :: rest → decode w = .ok i → step s = exec i s

/-- A word that is no command sets the latch to IllegalCommand and does nothing else, whatever the session (R57, R145). -/
def Obligations.IllegalWordSetsTheLatch : Prop :=
  ∀ (s : State) (w : CommandWord) (rest : List HostEvent) (why : DecodeError),
    s.running → s.port = .command w :: rest → decode w = .error why →
    step s = .next { s with halted := true, faultKind := .illegalCommand, port := rest,
                            responses := s.responses ++ [.fault .illegalCommand] }

/-- Hardware reset (R160): every piece of state at the value R23 gives it, the constants unaffected, and no transaction issued: the
count of those asked for stays. Nothing is said of fault_kind, which is unspecified. -/
def Obligations.HardwareResetRestoresResetValues : Prop :=
  ∀ (s : State) (rest : List HostEvent), s.port = .hardwareReset :: rest →
    ∃ t, step s = .next t ∧ (∀ q a, t.byteAt q a = 0) ∧ t.cache = .unknown ∧ t.sess = .noSession ∧ t.halted = false ∧
      t.trace = [] ∧ t.params = s.params ∧ t.asked = s.asked

/-- The values the spec gives for reset (R23): both sequences zero, Unknown, NoSession, not halted, an empty wire trace. -/
def Obligations.ResetStateHasTheSpecsValues : Prop :=
  (∀ q a, State.reset.byteAt q a = 0) ∧ State.reset.cache = .unknown ∧ State.reset.sess = .noSession ∧
  State.reset.halted = false ∧ State.reset.trace = []

/-- While halted every command, legal or not, is answered with the latched kind and changes nothing (R148, R145), and no event
but hardware reset clears the latch. -/
def Obligations.HaltedBlockAnswersTheLatchedFault : Prop :=
  ∀ s : State, s.halted = true →
    (∀ w rest, s.port = .command w :: rest →
      step s = .next { s with port := rest, responses := s.responses ++ [.fault s.faultKind] }) ∧
    (∀ t, step s = .next t → t.halted = false → ∃ rest, s.port = .hardwareReset :: rest)

/-- Once halted, a run over any number of commands changes no state of the block and issues no transaction (R24, R148): the
responses alone grow, each the latched fault. -/
def Obligations.HaltedRunChangesNothing : Prop :=
  ∀ (s : State) (ws : List CommandWord) (rest : List HostEvent), s.halted = true →
    s.port = ws.map HostEvent.command ++ rest →
    Sys2Proof.core.run ws.length s =
      .next { s with port := rest, responses := s.responses ++ List.replicate ws.length (.fault s.faultKind) }

/-- Every command that needs a session, with any operand, faults with NoSession when there is none and does nothing else; RESET
does not look at the session (R96). -/
def Obligations.SessionCheckComesBeforeEverything : Prop :=
  (∀ (i : Instr) (s : State), i.needsSession = true → s.running → s.sess = .noSession →
    exec i s = .next { s with halted := true, faultKind := .noSession, port := s.port.tail,
                              responses := s.responses ++ [.fault .noSession] }) ∧
  (∀ (s : State) (x : Session), s.running → exec .reset { s with sess := x } = exec .reset s)

/-- An operand out of its range sets the latch to RangeFault before any effect (R74, R75, R94, R144, R145). -/
def Obligations.OutOfRangeOperandFaults : Prop :=
  ∀ (i : Instr) (s : State), i.inRange = false → s.running → (i.needsSession = true → s.sess = .active) →
    exec i s = .next { s with halted := true, faultKind := .rangeFault, port := s.port.tail,
                              responses := s.responses ++ [.fault .rangeFault] }

/-- A response FAULT comes only with the latch set to that kind, and then nothing else has changed (R144, R150). -/
def Obligations.FaultsArePrecise : Prop :=
  ∀ (i : Instr) (s t : State) (k : FaultKind), exec i s = .next t → t.responses = s.responses ++ [.fault k] →
    t = { s with halted := true, faultKind := k, port := s.port.tail, responses := t.responses }

/-! ### The mapping (41_mapper, 20_memory) -/

/-- Routing of a channel index (R31): the formula, one position for one channel, every position of both sequences but 0. -/
def Obligations.LocRoutesEveryChannelToItsOwnPosition : Prop :=
  (∀ k : Channel, loc k = if k.val < 180 then (.s0, k.val + 1) else (.s1, k.val - 180 + 1)) ∧
  (∀ k k' : Channel, loc k = loc k' → k = k') ∧
  (∀ a, (∃ k, loc k = (.s0, a)) ↔ 1 ≤ a ∧ a ≤ 180) ∧ (∀ a, (∃ k, loc k = (.s1, a)) ↔ 1 ≤ a ∧ a ≤ 177)

/-- Slot and Base (R71, R72). -/
def Obligations.SlotAndBaseFollowTheFormulas : Prop :=
  ∀ x row : Nat, x < 13 → row < 9 →
    (slot x row = if x < 10 then x + 10 * row else x + 80 + 3 * row) ∧ base x row = 3 * slot x row ∧ 3 ∣ base x row

/-- The channel order (R73): (g, r, b) in the columns 1, 3, 5, 7, 9, 11 and 12, (b, g, r) in the others. -/
def Obligations.OrderFollowsColumnParity : Prop :=
  ∀ (x : Nat) (r g b : Byte), x < 13 →
    (x ∈ [1, 3, 5, 7, 9, 11, 12] → order x r g b = (g, r, b)) ∧ (x ∈ [0, 2, 4, 6, 8, 10] → order x r g b = (b, g, r))

/-- For every row remap table, (x, y) to Slot is a bijection from the 117 pixels onto [0, 117), and Base one onto the multiples
of 3 in [0, 351) (R76). -/
def Obligations.PixelsFillTheSlotsExactlyOnce : Prop :=
  ∀ m : RowMap,
    (∀ (x x' : Fin 13) (y y' : Fin 9), slot x (rowOf m y) = slot x' (rowOf m y') → x = x' ∧ y = y') ∧
    (∀ q, (∃ (x : Fin 13) (y : Fin 9), slot x (rowOf m y) = q) ↔ q < 117) ∧
    (∀ k, (∃ (x : Fin 13) (y : Fin 9), base x (rowOf m y) = k) ↔ 3 ∣ k ∧ k < 351)

/-- A pixel lies wholly in S0 when its slot is at most 59 and wholly in S1 otherwise; in the first block that is row <= 5, and
the second block is in S1; its positions are those of R77. -/
def Obligations.PixelNeverStraddlesTheSequences : Prop :=
  ∀ (m : RowMap) (x : Fin 13) (y : Fin 9) (i : Fin 3),
    (slot x (rowOf m y) ≤ 59 → loc (pixelChannel m x y i) = (.s0, base x (rowOf m y) + 1 + i)) ∧
    (60 ≤ slot x (rowOf m y) → loc (pixelChannel m x y i) = (.s1, base x (rowOf m y) - 179 + i)) ∧
    (slot x (rowOf m y) ≤ 59 ↔ x.val < 10 ∧ (rowOf m y).val ≤ 5)

/-- Two different pixels, or two different colours of one, never share a channel, and no pixel reaches the channels 351 to 356,
whatever the row remap table is (R76, R37). -/
def Obligations.PixelsNeverShareAChannel : Prop :=
  ∀ (m : RowMap) (x x' : Fin 13) (y y' : Fin 9) (i i' : Fin 3),
    (pixelChannel m x y i = pixelChannel m x' y' i' → x = x' ∧ y = y' ∧ i = i') ∧ (pixelChannel m x y i).val < 351

/-- A table given to the machine is taken when its entries are below 9 and no two are equal, and refused otherwise (R169). -/
def Obligations.OnlyPermutationsAreTakenAsRowMap : Prop :=
  ∀ t : Vector Nat 9,
    (rowMapOfTable t).isSome = true ↔ (∀ i : Fin 9, t[i] < 9) ∧ ∀ i j : Fin 9, t[i] = t[j] → i = j

/-! ### Unit M (41_mapper R74, R75, R79) -/

/-- SET_LED in range: the one byte at Loc(idx) becomes val, every other byte of both sequences and everything else stays, OK. -/
def Obligations.SetLedStoresOneByte : Prop :=
  ∀ (s : State) (idx : Nat) (val : Byte) (h : idx < 357), s.running → s.frameOk →
    ∃ t, exec (.setLed idx val) s = .next t ∧
      t.byteAt (loc ⟨idx, h⟩).1 (loc ⟨idx, h⟩).2 = val ∧
      (∀ q a, (q, a) ≠ loc ⟨idx, h⟩ → t.byteAt q a = s.byteAt q a) ∧
      t = { s with s0 := t.s0, s1 := t.s1, port := s.port.tail, responses := s.responses ++ [.ok] }

/-- SET_PIXEL in range: the pixel's three channels hold the three bytes in the order of its column, every other byte of both
sequences and everything else stays, OK (R75, E1). -/
def Obligations.SetPixelStoresThreeBytes : Prop :=
  ∀ (s : State) (x y : Nat) (r g b : Byte) (hx : x < 13) (hy : y < 9), s.running → s.frameOk →
    ∃ t, exec (.setPixel x y r g b) s = .next t ∧
      (∀ c0 c1 c2, (c0, c1, c2) = (if x % 2 = 1 ∨ x = 12 then (g, r, b) else (b, g, r)) →
        memRead (pixelChannel s.params.rowMap ⟨x, hx⟩ ⟨y, hy⟩ 0) t = c0 ∧
        memRead (pixelChannel s.params.rowMap ⟨x, hx⟩ ⟨y, hy⟩ 1) t = c1 ∧
        memRead (pixelChannel s.params.rowMap ⟨x, hx⟩ ⟨y, hy⟩ 2) t = c2) ∧
      (∀ q a, (∀ i, (q, a) ≠ loc (pixelChannel s.params.rowMap ⟨x, hx⟩ ⟨y, hy⟩ i)) → t.byteAt q a = s.byteAt q a) ∧
      t = { s with s0 := t.s0, s1 := t.s1, port := s.port.tail, responses := s.responses ++ [.ok] }

/-- Two SET_PIXELs to different pixels commute: each pixel keeps its own bytes whatever the order (R76). -/
def Obligations.PixelWritesCommute : Prop :=
  ∀ (s : State) (x x' : Fin 13) (y y' : Fin 9) (r g b r' g' b' : Byte), s.frameOk → (x ≠ x' ∨ y ≠ y') →
    writePixel x y r g b (writePixel x' y' r' g' b' s) = writePixel x' y' r' g' b' (writePixel x y r g b s)

/-- The unit M commands neither read nor write the page cache and the session and issue no transaction (R79): with another cache
and session they do the same. -/
def Obligations.UnitMIgnoresUnitP : Prop :=
  ∀ (i : Instr) (s t : State) (c : PageCache) (x : Session), i.isUnitM = true → exec i s = .next t →
    t.cache = s.cache ∧ t.sess = s.sess ∧ t.trace = s.trace ∧ t.asked = s.asked ∧ t.answers = s.answers ∧
    exec i { s with cache := c, sess := x } = .next { t with cache := c, sess := x }

/-! ### Unit P: commands that complete (42_page_protocol, 43_config_ops, 44_bulk_ops) -/

/-- SELECT_PAGE p in range: nothing on a cache hit, else unlock and select; the cache is p, OK (R93, R94). -/
def Obligations.SelectPageCompletes : Prop :=
  ∀ (s : State) (p : Nat) (hp : p < 5), s.ready → answersOk s (selectEntries s ⟨p, hp⟩).length →
    exec (.selectPage p) s =
      .next (({ s.advance (selectEntries s ⟨p, hp⟩) with cache := .page ⟨p, hp⟩ } : State).respond .ok)

/-- SELECT_PAGE p twice in succession issues the unlock and the select only once (R94, E3). -/
def Obligations.SelectPageTwiceSelectsOnce : Prop :=
  ∀ (s : State) (p : Nat), p < 5 → s.ready → answersOk s 2 →
    ∃ t, exec (.selectPage p) s = .next t ∧ t.trace.length ≤ s.trace.length + 2 ∧
      exec (.selectPage p) t = .next (t.respond .ok)

/-- RESET, from any cache and session: exactly the three writes, then Page(4) and a session, OK (R95, E5). -/
def Obligations.ResetCompletes : Prop :=
  ∀ s : State, s.running → answersOk s 3 →
    exec .reset s =
      .next (({ s.advance [okWrite s [0xFE, 0xC5], okWrite s [0xFD, 0x04], okWrite s [0x3F, 0xAE]] with
        cache := .page 4, sess := .active } : State).respond .ok)

/-- SET_GLOBAL_VOLTAGE v: page 4, then the write [0x01, v], OK (R110). -/
def Obligations.SetGlobalVoltageCompletes : Prop :=
  ∀ (s : State) (v : Byte), s.ready → answersOk s ((selectEntries s 4).length + 1) →
    exec (.setGlobalVoltage v) s =
      .next (({ s.advance (selectEntries s 4 ++ [okWrite s [0x01, v]]) with cache := .page 4 } : State).respond .ok)

/-- GET_GLOBAL_VOLTAGE and GET_SOFTWARE_SHUTDOWN_MODE: page 4, then a one-byte read of register 0x01 or 0x00; the byte the
transport returns is the response, whatever it is (R111, R113). -/
def Obligations.GetCommandsReturnTheByteRead : Prop :=
  ∀ (s : State) (d : Byte), s.ready → answersOkThen s (selectEntries s 4).length (.ok #v[d]) →
    exec .getGlobalVoltage s =
      .next (({ s.advance (selectEntries s 4 ++ [okRead s 0x01 d]) with cache := .page 4 } : State).respond (.okData d)) ∧
    exec .getSoftwareShutdownMode s =
      .next (({ s.advance (selectEntries s 4 ++ [okRead s 0x00 d]) with cache := .page 4 } : State).respond (.okData d))

/-- SET_SOFTWARE_SHUTDOWN_MODE_OFF: page 4, the read of register 0, then the write-back of the byte read with bit 0 set, with no
page select between (R112). -/
def Obligations.ShutdownModeOffWritesBackTheByteRead : Prop :=
  ∀ (s : State) (d : Byte), s.ready → answersOkThen s (selectEntries s 4).length (.ok #v[d]) →
    answersOk s ((selectEntries s 4).length + 2) →
    exec .setSoftwareShutdownModeOff s =
      .next (({ s.advance (selectEntries s 4 ++ [okRead s 0x00 d, okWrite s [0x00, d ||| 0x01]]) with
        cache := .page 4 } : State).respond .ok)

/-- The value written back keeps bits 7 to 1 as read and has bit 0 set (R112). -/
def Obligations.WriteBackKeepsTheOtherBits : Prop :=
  ∀ d : Byte, ∃ c : Byte, writeConfigBytes d = [0x00, c] ∧ c.getLsbD 0 = true ∧
    ∀ i, 1 ≤ i → i < 8 → c.getLsbD i = d.getLsbD i

/-- SET_ALL_LED_SCALES: 181 bytes on page 2 and 178 bytes on page 3, each a zero byte and then the scale; the frame store is not
touched; the cache is Page(3), OK (R121). -/
def Obligations.SetAllLedScalesCompletes : Prop :=
  ∀ (s : State) (scale : Byte), s.ready → answersOk s ((selectEntries s 2).length + 4) →
    exec (.setAllLedScales scale) s =
      .next (({ s.advance (selectEntries s 2 ++
          [okWrite s (0x00 :: List.replicate 180 scale), okWrite s [0xFE, 0xC5], okWrite s [0xFD, 0x03],
           okWrite s (0x00 :: List.replicate 177 scale)]) with cache := .page 3 } : State).respond .ok)

/-- WRITE_LED_MATRIX: S0 whole on page 0 and S1 whole on page 1; the frame store is not touched; the cache is Page(1), OK
(R123). -/
def Obligations.WriteLedMatrixCompletes : Prop :=
  ∀ s : State, s.ready → answersOk s ((selectEntries s 0).length + 4) →
    exec .writeLedMatrix s =
      .next (({ s.advance (selectEntries s 0 ++
          [okWrite s (s.sequenceBytes .s0), okWrite s [0xFE, 0xC5], okWrite s [0xFD, 0x01],
           okWrite s (s.sequenceBytes .s1)]) with cache := .page 1 } : State).respond .ok)

/-- The payloads of WRITE_LED_MATRIX (R122, R80): 181 and 178 bytes, the byte at each index the byte at that position, the first
byte 0. -/
def Obligations.FramePayloadsAreTheSequences : Prop :=
  ∀ s : State, s.frameOk →
    (s.sequenceBytes .s0).length = 181 ∧ (s.sequenceBytes .s1).length = 178 ∧
    (∀ i, i < 181 → (s.sequenceBytes .s0)[i]? = some (s.byteAt .s0 i)) ∧
    (∀ i, i < 178 → (s.sequenceBytes .s1)[i]? = some (s.byteAt .s1 i)) ∧
    (s.sequenceBytes .s0).head? = some 0 ∧ (s.sequenceBytes .s1).head? = some 0

/-- The scale payloads (R120, E4): byte 0 is 0 and all others are the scale. -/
def Obligations.ScalePayloadsHoldTheScale : Prop :=
  ∀ scale : Byte, scaleSeq0 scale = [0x00] ++ List.replicate 180 scale ∧ (scaleSeq0 scale).length = 181 ∧
    scaleSeq1 scale = [0x00] ++ List.replicate 177 scale ∧ (scaleSeq1 scale).length = 178

/-- SET_LED_0, SET_LED_1 and SET_LEDS each run their own script: for each pair the page is ensured and the bytes are written; the
cache is the last pair's page, OK (R124 to R127). -/
def Obligations.ScriptCommandsRunTheirScripts : Prop :=
  ∀ (s : State), s.ready →
    (answersOk s (scriptEntries s s.cache (scriptPairs s.params.scriptSetLed0)).length →
      exec .setLed0 s = .next (({ s.advance (scriptEntries s s.cache (scriptPairs s.params.scriptSetLed0)) with
        cache := scriptCache s.cache (scriptPairs s.params.scriptSetLed0) } : State).respond .ok)) ∧
    (answersOk s (scriptEntries s s.cache (scriptPairs s.params.scriptSetLed1)).length →
      exec .setLed1 s = .next (({ s.advance (scriptEntries s s.cache (scriptPairs s.params.scriptSetLed1)) with
        cache := scriptCache s.cache (scriptPairs s.params.scriptSetLed1) } : State).respond .ok)) ∧
    (answersOk s (scriptEntries s s.cache (scriptPairs s.params.scriptSetLeds)).length →
      exec .setLeds s = .next (({ s.advance (scriptEntries s s.cache (scriptPairs s.params.scriptSetLeds)) with
        cache := scriptCache s.cache (scriptPairs s.params.scriptSetLeds) } : State).respond .ok))

/-- The shape of every script (R127): it starts on page 0, later pairs are on pages 1 to 3 in ascending order, no write is
empty. -/
def Obligations.ScriptsStartOnPageZero : Prop :=
  ∀ c : Script, ∃ bytes rest, scriptPairs c = (0, bytes) :: rest ∧ bytes ≠ [] ∧
    (∀ pb ∈ rest, 1 ≤ pb.1.val ∧ pb.1.val ≤ 3 ∧ pb.2 ≠ []) ∧ List.Pairwise (fun a b => a.1.val ≤ b.1.val) rest

/-- Every command, in every state, completes when the transactions it may issue are answered, with `ok` or with an error (R46,
R98). -/
def Obligations.EveryAnsweredCommandCompletes : Prop :=
  ∀ (i : Instr) (s : State), answersCome s (maxTransactions s.params i) → ∃ t, exec i s = .next t

/-- A command whose first transaction is never answered never responds: the block waits for ever (R46). -/
def Obligations.UnansweredTransactionWaitsForEver : Prop :=
  ∀ (i : Instr) (s : State) (rest : List Answer), i.isUnitM = false → i.inRange = true → s.running →
    (i.needsSession = true → s.sess = .active) → (∀ p q, i = .selectPage p → s.cache = .page q → q.val ≠ p) →
    s.answers = .never :: rest → exec i s = .fault .transportNeverAnswers

/-! ### Unit P: transport errors (60_exceptions R143, R150) -/

/-- SELECT_PAGE on a cache miss when the unlock or the select fails: the select is not sent after a failed unlock, the cache is
Unknown under Invalidate and unchanged under Keep (R93, R97, R143). -/
def Obligations.FailedSelectLeavesThePageUnknown : Prop :=
  ∀ (s : State) (p : Nat) (hp : p < 5) (d : ReadData) (e : TransportError) (rest : List Answer), s.ready →
    s.cache ≠ .page ⟨p, hp⟩ →
    (s.answers = .err e :: rest → exec (.selectPage p) s =
      .next (({ s.advance [errWrite s [0xFE, 0xC5] e] with
        cache := if s.params.cacheOnError = .invalidate then .unknown else s.cache } : State).respond
          (.errTransport e))) ∧
    (s.answers = .ok d :: .err e :: rest → exec (.selectPage p) s =
      .next (({ s.advance [okWrite s [0xFE, 0xC5], errWrite s [0xFD, BitVec.ofNat 8 p] e] with
        cache := if s.params.cacheOnError = .invalidate then .unknown else s.cache } : State).respond
          (.errTransport e)))

/-- RESET that fails at any of its three writes leaves no session (R95): the cache is Unknown, but for Keep after the select
succeeded. -/
def Obligations.FailedResetLeavesNoSession : Prop :=
  ∀ (s : State) (d d' : ReadData) (e : TransportError) (rest : List Answer), s.running →
    (s.answers = .err e :: rest → exec .reset s =
      .next (({ s.advance [errWrite s [0xFE, 0xC5] e] with cache := .unknown, sess := .noSession } : State).respond
        (.errTransport e))) ∧
    (s.answers = .ok d :: .err e :: rest → exec .reset s =
      .next (({ s.advance [okWrite s [0xFE, 0xC5], errWrite s [0xFD, 0x04] e] with
        cache := .unknown, sess := .noSession } : State).respond (.errTransport e))) ∧
    (s.answers = .ok d :: .ok d' :: .err e :: rest → exec .reset s =
      .next (({ s.advance [okWrite s [0xFE, 0xC5], okWrite s [0xFD, 0x04], errWrite s [0x3F, 0xAE] e] with
        cache := if s.params.cacheOnError = .invalidate then .unknown else .page 4, sess := .noSession } :
          State).respond (.errTransport e)))

/-- When the second write of SET_ALL_LED_SCALES fails, whichever that is, the page-3 write is not attempted (R121, E6). -/
def Obligations.FailedScalesNeverReachPageThree : Prop :=
  ∀ (s : State) (scale : Byte) (d : ReadData) (e : TransportError) (rest : List Answer), s.ready →
    s.answers = .ok d :: .err e :: rest →
    exec (.setAllLedScales scale) s =
      if s.cache = .page 2 then
        .next (({ s.advance [okWrite s (0x00 :: List.replicate 180 scale), errWrite s [0xFE, 0xC5] e] with
          cache := if s.params.cacheOnError = .invalidate then .unknown else .page 2 } : State).respond (.errTransport e))
      else
        .next (({ s.advance [okWrite s [0xFE, 0xC5], errWrite s [0xFD, 0x02] e] with
          cache := if s.params.cacheOnError = .invalidate then .unknown else s.cache } : State).respond (.errTransport e))

/-- The read-modify-write of the shutdown bit (R112, R43): when the read fails nothing is written back; when the write-back fails
the error is reported and nothing is retried. -/
def Obligations.FailedShutdownModeOffIsNotRetried : Prop :=
  ∀ (s : State) (d : Byte) (e : TransportError) (rest : List Answer), s.ready → s.cache = .page 4 →
    (s.answers = .err e :: rest → exec .setSoftwareShutdownModeOff s =
      .next (({ s.advance [errRead s 0x00 e] with
        cache := if s.params.cacheOnError = .invalidate then .unknown else .page 4 } : State).respond
          (.errTransport e))) ∧
    (s.answers = .ok #v[d] :: .err e :: rest → exec .setSoftwareShutdownModeOff s =
      .next (({ s.advance [okRead s 0x00 d, errWrite s [0x00, d ||| 0x01] e] with
        cache := if s.params.cacheOnError = .invalidate then .unknown else .page 4 } : State).respond
          (.errTransport e)))

/-- A command that answers ERR_TRANSPORT(e) stopped at its first failed transaction (R92, R143): its entries on the trace are
free of errors but for the last, whose error is e; the frame store, the latch and the parameters are unchanged; the session is
unchanged, but RESET leaves none; the cache is Unknown under Invalidate. -/
def Obligations.FirstTransportErrorEndsTheCommand : Prop :=
  ∀ (i : Instr) (s t : State) (e : TransportError), exec i s = .next t →
    t.responses = s.responses ++ [.errTransport e] →
    (∃ added last, t.trace = s.trace ++ (added ++ [last]) ∧ (∀ x ∈ added, x.outcome.isErr = false) ∧
      last.outcome = .err e) ∧
    t.s0 = s.s0 ∧ t.s1 = s.s1 ∧ t.halted = s.halted ∧ t.faultKind = s.faultKind ∧ t.params = s.params ∧
    t.sess = (if i = .reset then .noSession else s.sess) ∧
    (s.params.cacheOnError = .invalidate → t.cache = .unknown)

/-- A command that answers OK or OK_DATA has had every transaction answered `ok` (R58, R92). -/
def Obligations.SuccessfulCommandHasNoError : Prop :=
  ∀ (i : Instr) (s t : State), exec i s = .next t →
    (t.responses = s.responses ++ [.ok] ∨ ∃ d, t.responses = s.responses ++ [.okData d]) →
    ∃ added, t.trace = s.trace ++ added ∧ ∀ x ∈ added, x.outcome.isErr = false

/-- The trap of the Keep policy (R170) and its absence under Invalidate (R165): after a SELECT_PAGE q that failed at its select
while page p was cached, SELECT_PAGE p sends nothing under Keep, and sends unlock and select under Invalidate. -/
def Obligations.StaleCacheTrapOfTheKeepPolicy : Prop :=
  ∀ (s : State) (p q : Fin 5) (d d1 d2 : ReadData) (e : TransportError) (rest : List Answer), s.ready → s.cache = .page p →
    p ≠ q → s.answers = .ok d :: .err e :: .ok d1 :: .ok d2 :: rest →
    ∃ t, exec (.selectPage q) s = .next t ∧
      (s.params.cacheOnError = .keep → exec (.selectPage p) t = .next (t.respond .ok)) ∧
      (s.params.cacheOnError = .invalidate → exec (.selectPage p) t =
        .next (({ t.advance [okWrite t [0xFE, 0xC5], okWrite t [0xFD, BitVec.ofNat 8 p.val]] with
          cache := .page p } : State).respond .ok))

/-! ### Rules about every command and every step -/

/-- Every command gives exactly one response and leaves the port, and what it adds to the trace is what it asked the oracle for
(R58, R90, R91). -/
def Obligations.EveryCommandRespondsExactlyOnce : Prop :=
  ∀ (i : Instr) (s t : State), exec i s = .next t →
    (∃ r, t.responses = s.responses ++ [r]) ∧ t.port = s.port.tail ∧
    ∃ added, t.trace = s.trace ++ added ∧ t.asked = s.asked + added.length ∧ t.answers = s.answers.drop added.length

/-- The commands of unit P never write the frame store, and but for WRITE_LED_MATRIX they do not read it (R2, R120, R122). -/
def Obligations.UnitPIgnoresTheFrameStore : Prop :=
  ∀ (i : Instr) (s t : State) (m0 m1 : Memory), i.isUnitM = false → exec i s = .next t →
    t.s0 = s.s0 ∧ t.s1 = s.s1 ∧
    (i ≠ .writeLedMatrix → exec i { s with s0 := m0, s1 := m1 } = .next { t with s0 := m0, s1 := m1 })

/-- No step changes the row remap table, the bus address, the policy or a script (R15, R18, R160). -/
def Obligations.ParametersNeverChange : Prop :=
  ∀ s t : State, step s = .next t → t.params = s.params

/-- Without a session a step issues no transaction but those of RESET (R96). -/
def Obligations.WithoutSessionOnlyResetReachesTheWire : Prop :=
  ∀ (i : Instr) (s t : State), s.sess = .noSession → exec i s = .next t →
    ∃ added, t.trace = s.trace ++ added ∧ (i ≠ .reset → added = []) ∧
      ∀ x ∈ added, x.transaction ∈ [.write s.params.busAddr [0xFE, 0xC5], .write s.params.busAddr [0xFD, 0x04],
        .write s.params.busAddr [0x3F, 0xAE]]

/-- Every transaction a command issues is of the wire vocabulary and goes to the bus address (R59, R18). -/
def Obligations.EveryTransactionIsOfTheWireVocabulary : Prop :=
  ∀ (i : Instr) (s t : State), exec i s = .next t →
    ∃ added, t.trace = s.trace ++ added ∧ ∀ x ∈ added, wireVocabulary s i x.transaction

/-- Every step keeps the frame store canonical, with data positions alone listed (R14, R32; log 12). -/
def Obligations.StepKeepsTheFrameStoreCanonical : Prop :=
  ∀ s t : State, s.frameOk → step s = .next t → t.frameOk

/-- Both command bytes read 0 in every such state, so every step keeps them 0 (R14). -/
def Obligations.CommandBytesStayZero : Prop :=
  (∀ (s : State) (q : Sequence), s.frameOk → s.byteAt q 0 = 0) ∧
  (∀ (s t : State) (q : Sequence), s.frameOk → step s = .next t → t.byteAt q 0 = 0)

/-- Every step keeps the page cache backed by the wire trace: it is the page of the last select that succeeded (R22, R45, R97). -/
def Obligations.StepKeepsTheCacheBackedByTheTrace : Prop :=
  ∀ s t : State, s.params.scriptsPlain → s.frameOk → s.cacheBacked → step s = .next t → t.cacheBacked

/-- Every step keeps each page-select write on the trace right after its own successful unlock (R152, R171). -/
def Obligations.StepKeepsEverySelectUnlocked : Prop :=
  ∀ s t : State, s.params.scriptsPlain → s.frameOk → s.selectsUnlocked → step s = .next t → t.selectsUnlocked

/-- Every step keeps a session backed by a RESET that completed (R17). -/
def Obligations.StepKeepsTheSessionBackedByAReset : Prop :=
  ∀ s t : State, s.sessionBacked → step s = .next t → t.sessionBacked

/-- The state after reset meets the four invariants. -/
def Obligations.ResetMeetsTheInvariants : Prop :=
  State.reset.frameOk ∧ State.reset.cacheBacked ∧ State.reset.selectsUnlocked ∧ State.reset.sessionBacked

/-- Item (3) of R24 read as an invariant: without a session and not halted, the trace holds RESET's transactions only. It is NOT
kept: a RESET that fails after a session leaves that session's transactions on the trace (log 13). -/
def Obligations.NoSessionMeansOnlyResetOnTheTrace : Prop :=
  ∀ s t : State,
    (s.sess = .noSession → s.halted = false →
      ∀ x ∈ s.trace, x.transaction ∈ [.write s.params.busAddr [0xFE, 0xC5], .write s.params.busAddr [0xFD, 0x04],
        .write s.params.busAddr [0x3F, 0xAE]]) →
    step s = .next t → t.sess = .noSession → t.halted = false →
      ∀ x ∈ t.trace, x.transaction ∈ [.write t.params.busAddr [0xFE, 0xC5], .write t.params.busAddr [0xFD, 0x04],
        .write t.params.busAddr [0x3F, 0xAE]]
end

