-- ==== Sys2Proof/Laws/State.lean ====
section
/-! SUPPORT. One lemma per field per update of the state, so that no later proof unfolds a record update. -/

namespace Sys2Proof.Machine

/-! ### respond -/

@[simp] theorem respond_s0 (s : State) (r : Response) : (s.respond r).s0 = s.s0 := rfl
@[simp] theorem respond_s1 (s : State) (r : Response) : (s.respond r).s1 = s.s1 := rfl
@[simp] theorem respond_cache (s : State) (r : Response) : (s.respond r).cache = s.cache := rfl
@[simp] theorem respond_sess (s : State) (r : Response) : (s.respond r).sess = s.sess := rfl
@[simp] theorem respond_halted (s : State) (r : Response) : (s.respond r).halted = s.halted := rfl
@[simp] theorem respond_faultKind (s : State) (r : Response) : (s.respond r).faultKind = s.faultKind := rfl
@[simp] theorem respond_params (s : State) (r : Response) : (s.respond r).params = s.params := rfl
@[simp] theorem respond_trace (s : State) (r : Response) : (s.respond r).trace = s.trace := rfl
@[simp] theorem respond_port (s : State) (r : Response) : (s.respond r).port = s.port.tail := rfl
@[simp] theorem respond_responses (s : State) (r : Response) : (s.respond r).responses = s.responses ++ [r] := rfl
@[simp] theorem respond_answers (s : State) (r : Response) : (s.respond r).answers = s.answers := rfl
@[simp] theorem respond_asked (s : State) (r : Response) : (s.respond r).asked = s.asked := rfl

/-! ### recordTransaction -/

@[simp] theorem recordTransaction_s0 (s : State) (t : Transaction) (o : BusOutcome) :
    (s.recordTransaction t o).s0 = s.s0 := rfl
@[simp] theorem recordTransaction_s1 (s : State) (t : Transaction) (o : BusOutcome) :
    (s.recordTransaction t o).s1 = s.s1 := rfl
@[simp] theorem recordTransaction_cache (s : State) (t : Transaction) (o : BusOutcome) :
    (s.recordTransaction t o).cache = s.cache := rfl
@[simp] theorem recordTransaction_sess (s : State) (t : Transaction) (o : BusOutcome) :
    (s.recordTransaction t o).sess = s.sess := rfl
@[simp] theorem recordTransaction_halted (s : State) (t : Transaction) (o : BusOutcome) :
    (s.recordTransaction t o).halted = s.halted := rfl
@[simp] theorem recordTransaction_faultKind (s : State) (t : Transaction) (o : BusOutcome) :
    (s.recordTransaction t o).faultKind = s.faultKind := rfl
@[simp] theorem recordTransaction_params (s : State) (t : Transaction) (o : BusOutcome) :
    (s.recordTransaction t o).params = s.params := rfl
@[simp] theorem recordTransaction_trace (s : State) (t : Transaction) (o : BusOutcome) :
    (s.recordTransaction t o).trace = s.trace ++ [⟨t, o⟩] := rfl
@[simp] theorem recordTransaction_port (s : State) (t : Transaction) (o : BusOutcome) :
    (s.recordTransaction t o).port = s.port := rfl
@[simp] theorem recordTransaction_responses (s : State) (t : Transaction) (o : BusOutcome) :
    (s.recordTransaction t o).responses = s.responses := rfl
@[simp] theorem recordTransaction_answers (s : State) (t : Transaction) (o : BusOutcome) :
    (s.recordTransaction t o).answers = s.answers.tail := rfl
@[simp] theorem recordTransaction_asked (s : State) (t : Transaction) (o : BusOutcome) :
    (s.recordTransaction t o).asked = s.asked + 1 := rfl

/-! ### errorEntry -/

@[simp] theorem errorEntry_s0 (s : State) : (errorEntry s).s0 = s.s0 := by
  unfold errorEntry; split <;> rfl
@[simp] theorem errorEntry_s1 (s : State) : (errorEntry s).s1 = s.s1 := by
  unfold errorEntry; split <;> rfl
@[simp] theorem errorEntry_sess (s : State) : (errorEntry s).sess = s.sess := by
  unfold errorEntry; split <;> rfl
@[simp] theorem errorEntry_halted (s : State) :
    (errorEntry s).halted = s.halted := by
  unfold errorEntry; split <;> rfl
@[simp] theorem errorEntry_faultKind (s : State) :
    (errorEntry s).faultKind = s.faultKind := by
  unfold errorEntry; split <;> rfl
@[simp] theorem errorEntry_params (s : State) :
    (errorEntry s).params = s.params := by
  unfold errorEntry; split <;> rfl
@[simp] theorem errorEntry_trace (s : State) : (errorEntry s).trace = s.trace := by
  unfold errorEntry; split <;> rfl
@[simp] theorem errorEntry_port (s : State) : (errorEntry s).port = s.port := by
  unfold errorEntry; split <;> rfl
@[simp] theorem errorEntry_responses (s : State) :
    (errorEntry s).responses = s.responses := by
  unfold errorEntry; split <;> rfl
@[simp] theorem errorEntry_answers (s : State) :
    (errorEntry s).answers = s.answers := by
  unfold errorEntry; split <;> rfl
@[simp] theorem errorEntry_asked (s : State) : (errorEntry s).asked = s.asked := by
  unfold errorEntry; split <;> rfl
/-- What the error entry does to the cache (R143). -/
theorem errorEntry_cache (s : State) :
    (errorEntry s).cache = if s.params.cacheOnError = .invalidate then .unknown else s.cache := by
  unfold errorEntry; split <;> simp_all

/-! ### storeByte and memWrite -/

@[simp] theorem storeByte_cache (s : State) (q : Sequence) (a : Nat) (v : Byte) :
    (s.storeByte q a v).cache = s.cache := by cases q <;> rfl
@[simp] theorem storeByte_sess (s : State) (q : Sequence) (a : Nat) (v : Byte) :
    (s.storeByte q a v).sess = s.sess := by cases q <;> rfl
@[simp] theorem storeByte_halted (s : State) (q : Sequence) (a : Nat) (v : Byte) :
    (s.storeByte q a v).halted = s.halted := by cases q <;> rfl
@[simp] theorem storeByte_faultKind (s : State) (q : Sequence) (a : Nat) (v : Byte) :
    (s.storeByte q a v).faultKind = s.faultKind := by cases q <;> rfl
@[simp] theorem storeByte_params (s : State) (q : Sequence) (a : Nat) (v : Byte) :
    (s.storeByte q a v).params = s.params := by cases q <;> rfl
@[simp] theorem storeByte_trace (s : State) (q : Sequence) (a : Nat) (v : Byte) :
    (s.storeByte q a v).trace = s.trace := by cases q <;> rfl
@[simp] theorem storeByte_port (s : State) (q : Sequence) (a : Nat) (v : Byte) :
    (s.storeByte q a v).port = s.port := by cases q <;> rfl
@[simp] theorem storeByte_responses (s : State) (q : Sequence) (a : Nat) (v : Byte) :
    (s.storeByte q a v).responses = s.responses := by cases q <;> rfl
@[simp] theorem storeByte_answers (s : State) (q : Sequence) (a : Nat) (v : Byte) :
    (s.storeByte q a v).answers = s.answers := by cases q <;> rfl
@[simp] theorem storeByte_asked (s : State) (q : Sequence) (a : Nat) (v : Byte) :
    (s.storeByte q a v).asked = s.asked := by cases q <;> rfl
@[simp] theorem memWrite_cache (k : Channel) (v : Byte) (s : State) :
    (memWrite k v s).cache = s.cache := by simp [memWrite]
@[simp] theorem memWrite_sess (k : Channel) (v : Byte) (s : State) :
    (memWrite k v s).sess = s.sess := by simp [memWrite]
@[simp] theorem memWrite_halted (k : Channel) (v : Byte) (s : State) :
    (memWrite k v s).halted = s.halted := by simp [memWrite]
@[simp] theorem memWrite_faultKind (k : Channel) (v : Byte) (s : State) :
    (memWrite k v s).faultKind = s.faultKind := by simp [memWrite]
@[simp] theorem memWrite_params (k : Channel) (v : Byte) (s : State) :
    (memWrite k v s).params = s.params := by simp [memWrite]
@[simp] theorem memWrite_trace (k : Channel) (v : Byte) (s : State) :
    (memWrite k v s).trace = s.trace := by simp [memWrite]
@[simp] theorem memWrite_port (k : Channel) (v : Byte) (s : State) :
    (memWrite k v s).port = s.port := by simp [memWrite]
@[simp] theorem memWrite_responses (k : Channel) (v : Byte) (s : State) :
    (memWrite k v s).responses = s.responses := by simp [memWrite]
@[simp] theorem memWrite_answers (k : Channel) (v : Byte) (s : State) :
    (memWrite k v s).answers = s.answers := by simp [memWrite]
@[simp] theorem memWrite_asked (k : Channel) (v : Byte) (s : State) :
    (memWrite k v s).asked = s.asked := by simp [memWrite]
@[simp] theorem writePixel_cache (x : Fin Config.gridW) (y : Fin Config.gridH) (r g b : Byte) (s : State) :
    (writePixel x y r g b s).cache = s.cache := by
  simp [writePixel]
@[simp] theorem writePixel_sess (x : Fin Config.gridW) (y : Fin Config.gridH) (r g b : Byte) (s : State) :
    (writePixel x y r g b s).sess = s.sess := by
  simp [writePixel]
@[simp] theorem writePixel_halted (x : Fin Config.gridW) (y : Fin Config.gridH) (r g b : Byte) (s : State) :
    (writePixel x y r g b s).halted = s.halted := by
  simp [writePixel]
@[simp] theorem writePixel_faultKind (x : Fin Config.gridW) (y : Fin Config.gridH) (r g b : Byte) (s : State) :
    (writePixel x y r g b s).faultKind = s.faultKind := by
  simp [writePixel]
@[simp] theorem writePixel_params (x : Fin Config.gridW) (y : Fin Config.gridH) (r g b : Byte) (s : State) :
    (writePixel x y r g b s).params = s.params := by
  simp [writePixel]
@[simp] theorem writePixel_trace (x : Fin Config.gridW) (y : Fin Config.gridH) (r g b : Byte) (s : State) :
    (writePixel x y r g b s).trace = s.trace := by
  simp [writePixel]
@[simp] theorem writePixel_port (x : Fin Config.gridW) (y : Fin Config.gridH) (r g b : Byte) (s : State) :
    (writePixel x y r g b s).port = s.port := by
  simp [writePixel]
@[simp] theorem writePixel_responses (x : Fin Config.gridW) (y : Fin Config.gridH) (r g b : Byte) (s : State) :
    (writePixel x y r g b s).responses = s.responses := by
  simp [writePixel]
@[simp] theorem writePixel_answers (x : Fin Config.gridW) (y : Fin Config.gridH) (r g b : Byte) (s : State) :
    (writePixel x y r g b s).answers = s.answers := by
  simp [writePixel]
@[simp] theorem writePixel_asked (x : Fin Config.gridW) (y : Fin Config.gridH) (r g b : Byte) (s : State) :
    (writePixel x y r g b s).asked = s.asked := by
  simp [writePixel]
@[simp] theorem storeByte_memory_same (s : State) (q : Sequence) (a : Nat) (v : Byte) :
    (s.storeByte q a v).memory q = (s.memory q).write a v := by cases q <;> rfl
theorem storeByte_memory_other (s : State) {q q' : Sequence} (a : Nat) (v : Byte) (h : q' ≠ q) :
    (s.storeByte q a v).memory q' = s.memory q' := by
  cases q <;> cases q' <;> first | rfl | exact absurd rfl h

/-! ### hardwareReset -/

@[simp] theorem hardwareReset_s0 (s : State) : (hardwareReset s).s0 = State.reset.s0 := rfl
@[simp] theorem hardwareReset_s1 (s : State) : (hardwareReset s).s1 = State.reset.s1 := rfl
@[simp] theorem hardwareReset_cache (s : State) : (hardwareReset s).cache = State.reset.cache := rfl
@[simp] theorem hardwareReset_sess (s : State) : (hardwareReset s).sess = State.reset.sess := rfl
@[simp] theorem hardwareReset_halted (s : State) : (hardwareReset s).halted = State.reset.halted := rfl
@[simp] theorem hardwareReset_faultKind (s : State) : (hardwareReset s).faultKind = State.reset.faultKind := rfl
@[simp] theorem hardwareReset_params (s : State) : (hardwareReset s).params = s.params := rfl
@[simp] theorem hardwareReset_trace (s : State) : (hardwareReset s).trace = State.reset.trace := rfl
@[simp] theorem hardwareReset_port (s : State) : (hardwareReset s).port = s.port.tail := rfl
@[simp] theorem hardwareReset_responses (s : State) : (hardwareReset s).responses = State.reset.responses := rfl
@[simp] theorem hardwareReset_answers (s : State) : (hardwareReset s).answers = s.answers := rfl
@[simp] theorem hardwareReset_asked (s : State) : (hardwareReset s).asked = s.asked := rfl

/-! ### advance -/

@[simp] theorem advance_s0 (s : State) (l : List TraceEntry) : (s.advance l).s0 = s.s0 := rfl
@[simp] theorem advance_s1 (s : State) (l : List TraceEntry) : (s.advance l).s1 = s.s1 := rfl
@[simp] theorem advance_cache (s : State) (l : List TraceEntry) : (s.advance l).cache = s.cache := rfl
@[simp] theorem advance_sess (s : State) (l : List TraceEntry) : (s.advance l).sess = s.sess := rfl
@[simp] theorem advance_halted (s : State) (l : List TraceEntry) : (s.advance l).halted = s.halted := rfl
@[simp] theorem advance_faultKind (s : State) (l : List TraceEntry) : (s.advance l).faultKind = s.faultKind := rfl
@[simp] theorem advance_params (s : State) (l : List TraceEntry) : (s.advance l).params = s.params := rfl
@[simp] theorem advance_trace (s : State) (l : List TraceEntry) : (s.advance l).trace = s.trace ++ l := rfl
@[simp] theorem advance_port (s : State) (l : List TraceEntry) : (s.advance l).port = s.port := rfl
@[simp] theorem advance_responses (s : State) (l : List TraceEntry) : (s.advance l).responses = s.responses := rfl
@[simp] theorem advance_answers (s : State) (l : List TraceEntry) :
    (s.advance l).answers = s.answers.drop l.length := rfl
@[simp] theorem advance_asked (s : State) (l : List TraceEntry) : (s.advance l).asked = s.asked + l.length := rfl
@[simp] theorem advance_nil (s : State) : s.advance [] = s := by
  cases s; simp [State.advance]
theorem advance_append (s : State) (l l' : List TraceEntry) : (s.advance l).advance l' = s.advance (l ++ l') := by
  simp [State.advance, Nat.add_assoc]
/-- One transaction recorded is an advance by one entry. -/
theorem recordTransaction_eq_advance (s : State) (t : Transaction) (o : BusOutcome) :
    s.recordTransaction t o = s.advance [⟨t, o⟩] := by
  simp [State.recordTransaction, State.advance]

/-! ### sequences -/

@[simp] theorem memory_s0 (s : State) : s.memory .s0 = s.s0 := rfl
@[simp] theorem memory_s1 (s : State) : s.memory .s1 = s.s1 := rfl
/-- The bytes of a sequence depend on the frame store only. -/
theorem sequenceBytes_congr {s t : State} (h0 : t.s0 = s.s0) (h1 : t.s1 = s.s1) (q : Sequence) :
    t.sequenceBytes q = s.sequenceBytes q := by
  cases q <;> simp [State.sequenceBytes, State.byteAt, State.memory, h0, h1]

end Sys2Proof.Machine
end

