-- ==== Sys2Proof/Laws/Ops.lean ====
section
/-! SUPPORT. For each shared operation, once, everything it can do: the checks, one transaction, a sequence of transactions, the
page select, scripts, and the end of a command. -/

namespace Sys2Proof.Machine

/-! ### The checks of R145 -/

/-- What a command with the latch check answers. -/
theorem unlessHalted_next {s t : State} {k : State → Host.Outcome State Fault Refusal} (h : unlessHalted s k = .next t) :
    (s.halted = true ∧ t = s.respond (.fault s.faultKind)) ∨ (s.halted = false ∧ k s = .next t) := by
  unfold unlessHalted at h
  split at h
  · rename_i hs
    exact .inl ⟨hs, by simpa using h.symm⟩
  · rename_i hs
    exact .inr ⟨by simpa using hs, h⟩

@[simp] theorem unlessHalted_of_running {s : State} (k : State → Host.Outcome State Fault Refusal)
    (h : s.halted = false) : unlessHalted s k = k s := by
  simp [unlessHalted, h]

@[simp] theorem unlessHalted_of_halted {s : State} (k : State → Host.Outcome State Fault Refusal)
    (h : s.halted = true) : unlessHalted s k = .next (s.respond (.fault s.faultKind)) := by
  simp [unlessHalted, h]

/-- The state after the fault entry (R144). -/
theorem raiseFault_next {kind : FaultKind} {s t : State} (h : raiseFault kind s = .next t) :
    t = ({ s with halted := true, faultKind := kind } : State).respond (.fault kind) := by
  simpa [raiseFault] using h.symm

/-- What a command with the session check answers. -/
theorem requireSession_next {s t : State} {k : State → Host.Outcome State Fault Refusal}
    (h : requireSession s k = .next t) :
    (s.sess = .noSession ∧ raiseFault .noSession s = .next t) ∨ (s.sess = .active ∧ k s = .next t) := by
  unfold requireSession at h
  split at h
  · rename_i hs
    exact .inl ⟨hs, h⟩
  · rename_i hs
    exact .inr ⟨hs, h⟩

@[simp] theorem requireSession_of_active {s : State} (k : State → Host.Outcome State Fault Refusal)
    (h : s.sess = .active) : requireSession s k = k s := by
  simp [requireSession, h]

@[simp] theorem requireSession_of_noSession {s : State} (k : State → Host.Outcome State Fault Refusal)
    (h : s.sess = .noSession) : requireSession s k = raiseFault .noSession s := by
  simp [requireSession, h]

/-! ### One transaction -/

theorem oracleAnswer_cons {s : State} {a : Answer} {l : List Answer} (t : Transaction) (h : s.answers = a :: l) :
    oracleAnswer t s = a := by
  simp [oracleAnswer, h]

/-- Everything a write can do (R90). -/
theorem busWrite_cases (bytes : List Byte) (s : State) :
    busWrite bytes s = .done () (s.advance [okWrite s bytes]) ∨
    (∃ e, busWrite bytes s = .aborted e (errorEntry (s.advance [errWrite s bytes e]))) ∨
    busWrite bytes s = .silent := by
  unfold busWrite
  split
  · exact .inl (by rw [recordTransaction_eq_advance]; rfl)
  · rename_i e _
    exact .inr (.inl ⟨e, by rw [recordTransaction_eq_advance]; rfl⟩)
  · exact .inr (.inr rfl)

/-- A write that is done. -/
theorem busWrite_done {bytes : List Byte} {s s' : State} {u : Unit} (h : busWrite bytes s = .done u s') :
    s' = s.advance [okWrite s bytes] := by
  rcases busWrite_cases bytes s with h' | ⟨e, h'⟩ | h' <;> rw [h'] at h <;> cases h
  rfl

/-- A write whose next settled answer is `ok`. -/
theorem busWrite_of_ok {s : State} {d : ReadData} {l : List Answer} (bytes : List Byte) (h : s.answers = .ok d :: l) :
    busWrite bytes s = .done () (s.advance [okWrite s bytes]) := by
  simp only [busWrite, oracleAnswer_cons _ h, recordTransaction_eq_advance]
  rfl

/-- A write whose next settled answer is an error. -/
theorem busWrite_of_err {s : State} {e : TransportError} {l : List Answer} (bytes : List Byte)
    (h : s.answers = .err e :: l) :
    busWrite bytes s = .aborted e (errorEntry (s.advance [errWrite s bytes e])) := by
  simp only [busWrite, oracleAnswer_cons _ h, recordTransaction_eq_advance]
  rfl

/-- The bytes an `ok` read yields are the one byte the block looks at (READ_LEN is 1). -/
theorem readData_toList (d : ReadData) : d.toList = [firstByte d] := by
  rcases d with ⟨⟨l⟩, hl⟩
  match l, hl with
  | [b], _ => rfl

/-- Everything a one-byte read can do (R91). -/
theorem busWriteRead_cases (reg : Byte) (s : State) :
    (∃ d, busWriteRead [reg] s = .done d (s.advance [okRead s reg (firstByte d)])) ∨
    (∃ e, busWriteRead [reg] s = .aborted e (errorEntry (s.advance [errRead s reg e]))) ∨
    busWriteRead [reg] s = .silent := by
  unfold busWriteRead
  split
  · rename_i d _
    exact .inl ⟨d, by rw [recordTransaction_eq_advance, readData_toList]; rfl⟩
  · rename_i e _
    exact .inr (.inl ⟨e, by rw [recordTransaction_eq_advance]; rfl⟩)
  · exact .inr (.inr rfl)

/-- A read whose next settled answer is `ok`. -/
theorem busWriteRead_of_ok {s : State} {d : ReadData} {l : List Answer} (reg : Byte) (h : s.answers = .ok d :: l) :
    busWriteRead [reg] s = .done d (s.advance [okRead s reg (firstByte d)]) := by
  simp only [busWriteRead, oracleAnswer_cons _ h, recordTransaction_eq_advance, readData_toList]
  rfl

/-- A read whose next settled answer is an error. -/
theorem busWriteRead_of_err {s : State} {e : TransportError} {l : List Answer} (reg : Byte) (h : s.answers = .err e :: l) :
    busWriteRead [reg] s = .aborted e (errorEntry (s.advance [errRead s reg e])) := by
  simp only [busWriteRead, oracleAnswer_cons _ h, recordTransaction_eq_advance]
  rfl

/-! ### Sequences -/

@[simp] theorem andThen_done {α β : Type} (a : α) (s : State) (k : α → State → Progress β) :
    (Progress.done a s).andThen k = k a s := rfl
@[simp] theorem andThen_aborted {α β : Type} (e : TransportError) (s : State) (k : α → State → Progress β) :
    (Progress.aborted e s : Progress α).andThen k = .aborted e s := rfl
@[simp] theorem andThen_silent {α β : Type} (k : α → State → Progress β) :
    (Progress.silent : Progress α).andThen k = .silent := rfl

/-- A sequence that is done was done at each step. -/
theorem andThen_eq_done {α β : Type} {p : Progress α} {k : α → State → Progress β} {b : β} {s' : State}
    (h : p.andThen k = .done b s') : ∃ a s, p = .done a s ∧ k a s = .done b s' := by
  cases p with
  | done a s => exact ⟨a, s, rfl, h⟩
  | aborted e s => cases h
  | silent => cases h

/-- A sequence that was aborted was aborted at its first part, or that was done and the rest was aborted. -/
theorem andThen_eq_aborted {α β : Type} {p : Progress α} {k : α → State → Progress β} {e : TransportError} {s' : State}
    (h : p.andThen k = .aborted e s') :
    p = .aborted e s' ∨ ∃ a s, p = .done a s ∧ k a s = .aborted e s' := by
  cases p with
  | done a s => exact .inr ⟨a, s, rfl, h⟩
  | aborted e s => cases h; exact .inl rfl
  | silent => cases h

theorem advance_updateCache (s : State) (c : PageCache) (l : List TraceEntry) :
    ({ s with cache := c } : State).advance l = { s.advance l with cache := c } := rfl

@[simp] theorem okWrite_advance (s : State) (l : List TraceEntry) (bytes : List Byte) :
    okWrite (s.advance l) bytes = okWrite s bytes := rfl
@[simp] theorem errWrite_advance (s : State) (l : List TraceEntry) (bytes : List Byte) (e : TransportError) :
    errWrite (s.advance l) bytes e = errWrite s bytes e := rfl
@[simp] theorem okRead_advance (s : State) (l : List TraceEntry) (reg d : Byte) :
    okRead (s.advance l) reg d = okRead s reg d := rfl
@[simp] theorem errRead_advance (s : State) (l : List TraceEntry) (reg : Byte) (e : TransportError) :
    errRead (s.advance l) reg e = errRead s reg e := rfl

/-- Everything the page select can do (R93, R97). -/
theorem ensurePage_cases (p : Page) (s : State) :
    (s.cache = .page p ∧ ensurePage p s = .done () s) ∨
    (s.cache ≠ .page p ∧
      (ensurePage p s =
          .done () { s.advance [okWrite s unlockBytes, okWrite s (pageSelectBytes p)] with cache := .page p } ∨
       (∃ e, ensurePage p s = .aborted e (errorEntry (s.advance [errWrite s unlockBytes e]))) ∨
       (∃ e, ensurePage p s =
          .aborted e (errorEntry (s.advance [okWrite s unlockBytes, errWrite s (pageSelectBytes p) e]))) ∨
       ensurePage p s = .silent)) := by
  unfold ensurePage
  split
  · rename_i h
    exact .inl ⟨h, rfl⟩
  · rename_i h
    refine .inr ⟨h, ?_⟩
    rcases busWrite_cases unlockBytes s with h1 | ⟨e, h1⟩ | h1
    · rcases busWrite_cases (pageSelectBytes p) (s.advance [okWrite s unlockBytes]) with h2 | ⟨e, h2⟩ | h2
      · exact .inl (by simp [h1, h2, advance_append])
      · exact .inr (.inr (.inl ⟨e, by simp [h1, h2, advance_append]⟩))
      · exact .inr (.inr (.inr (by simp [h1, h2])))
    · exact .inr (.inl ⟨e, by simp [h1]⟩)
    · exact .inr (.inr (.inr (by simp [h1])))

/-- A page select that is done: the entries of R93, and the cache is the page. -/
theorem ensurePage_done {p : Page} {s s' : State} {u : Unit} (h : ensurePage p s = .done u s') :
    s' = { s.advance (selectEntries s p) with cache := .page p } := by
  rcases ensurePage_cases p s with ⟨hc, h'⟩ | ⟨hc, h' | ⟨e, h'⟩ | ⟨e, h'⟩ | h'⟩ <;> rw [h'] at h <;> cases h
  · rw [selectEntries, if_pos hc, advance_nil, ← hc]
  · simp [selectEntries, hc, unlockBytes, pageSelectBytes]

/-! ### The transport answers `ok` -/

theorem answersOk_zero (s : State) : answersOk s 0 := ⟨Nat.zero_le _, by simp⟩

/-- When one more answer is `ok`, the next settled answer is `ok`. -/
theorem answersOk_succ {s : State} {n : Nat} (h : answersOk s (n + 1)) :
    ∃ d l, s.answers = .ok d :: l := by
  obtain ⟨hl, ha⟩ := h
  cases hs : s.answers with
  | nil => simp [hs] at hl
  | cons a l =>
    have := ha a (by simp [hs])
    cases a with
    | ok d => exact ⟨d, l, rfl⟩
    | err e => simp [Answer.isOk] at this
    | never => simp [Answer.isOk] at this

/-- After as many entries as answers, the remaining answers are still `ok`. -/
theorem answersOk_advance {s : State} {n m : Nat} {l : List TraceEntry} (h : answersOk s n) (hl : l.length + m ≤ n) :
    answersOk (s.advance l) m := by
  obtain ⟨h1, h2⟩ := h
  refine ⟨by simp; omega, fun a ha => h2 a ?_⟩
  rw [advance_answers] at ha
  have : (s.answers.drop l.length).take m = (s.answers.take (l.length + m)).drop l.length := by
    rw [List.drop_take]; simp
  rw [this] at ha
  have h3 : s.answers.take (l.length + m) = (s.answers.take n).take (l.length + m) := by
    rw [List.take_take, Nat.min_eq_left hl]
  rw [h3] at ha
  exact List.mem_of_mem_take (List.mem_of_mem_drop ha)

/-- The cache has no part in what the transport answers. -/
theorem answersOk_congr {s t : State} {n : Nat} (h : t.answers = s.answers) : answersOk t n ↔ answersOk s n := by
  simp [answersOk, h]

theorem busWrite_of_answersOk {s : State} {n : Nat} (bytes : List Byte) (h : answersOk s (n + 1)) :
    busWrite bytes s = .done () (s.advance [okWrite s bytes]) := by
  obtain ⟨d, l, hs⟩ := answersOk_succ h
  exact busWrite_of_ok bytes hs

/-- The page select when the transport answers `ok` (R93). -/
theorem ensurePage_of_answersOk {s : State} {n : Nat} (p : Page) (h : answersOk s ((selectEntries s p).length + n)) :
    ensurePage p s = .done () { s.advance (selectEntries s p) with cache := .page p } := by
  by_cases hc : s.cache = .page p
  · rw [ensurePage, if_pos hc, selectEntries, if_pos hc, advance_nil, ← hc]
  · simp only [selectEntries, hc, if_false, List.length_cons, List.length_nil, ensurePage] at h ⊢
    rw [busWrite_of_answersOk (n := 1 + n) _ (by simpa [Nat.add_comm, Nat.add_left_comm] using h)]
    simp only [andThen_done]
    rw [busWrite_of_answersOk (n := n) _ (answersOk_advance h (by simp; omega))]
    simp [advance_append, unlockBytes, pageSelectBytes]

/-- A write on a page when the transport answers `ok`. -/
theorem writeOnPage_of_answersOk {s : State} {n : Nat} (p : Page) (bytes : List Byte)
    (h : answersOk s ((selectEntries s p).length + 1 + n)) :
    writeOnPage p bytes s =
      .done () { s.advance (selectEntries s p ++ [okWrite s bytes]) with cache := .page p } := by
  rw [writeOnPage, ensurePage_of_answersOk (n := 1 + n) p (by rwa [← Nat.add_assoc])]
  simp only [andThen_done]
  rw [busWrite_of_answersOk (n := n)]
  · rw [advance_updateCache, advance_append]; rfl
  · exact (answersOk_congr (s := s.advance (selectEntries s p)) rfl).mpr (answersOk_advance h (by omega))

/-! ### What any sequence of steps does to the state -/

/-- `s'` is `s` after transactions that left `added` on the trace, but for the cache. -/
def After (s s' : State) (added : List TraceEntry) : Prop := s' = { s.advance added with cache := s'.cache }

theorem After.trans {s s' s'' : State} {l l' : List TraceEntry} (h : After s s' l) (h' : After s' s'' l') :
    After s s'' (l ++ l') := by
  unfold After at *
  rw [h', h]
  simp [State.advance, Nat.add_assoc]

theorem After.refl (s : State) : After s s [] := by simp [After]

/-- What a sequence of steps from `s` can have done: when done, every entry it added is free of errors; when aborted, only
the last entry it added is an error, and that error is the one reported; and the cache is Unknown then under Invalidate. -/
def Progress.sound {α : Type} (s : State) : Progress α → Prop
  | .done _ s' => ∃ added, After s s' added ∧ ∀ t ∈ added, t.outcome.isErr = false
  | .aborted e s' => ∃ added last, After s s' (added ++ [last]) ∧ (∀ t ∈ added, t.outcome.isErr = false) ∧
      last.outcome = .err e ∧ (s.params.cacheOnError = .invalidate → s'.cache = .unknown)
  | .silent => True

theorem Progress.sound_andThen {α β : Type} {s : State} {p : Progress α} {k : α → State → Progress β}
    (hp : p.sound s) (hk : ∀ a s', p = .done a s' → (k a s').sound s') : (p.andThen k).sound s := by
  cases p with
  | silent => trivial
  | aborted e s' => exact hp
  | done a s' =>
    obtain ⟨l, h1, h2⟩ := hp
    have hk := hk a s' rfl
    have hparams : s'.params = s.params := by rw [h1]; rfl
    simp only [andThen_done]
    revert hk
    cases k a s' with
    | silent => intro _; trivial
    | done b s'' =>
      rintro ⟨l', h3, h4⟩
      refine ⟨l ++ l', h1.trans h3, fun t ht => ?_⟩
      rcases List.mem_append.mp ht with ht | ht
      · exact h2 t ht
      · exact h4 t ht
    | aborted e s'' =>
      rintro ⟨l', last, h3, h4, h5, h6⟩
      refine ⟨l ++ l', last, by simpa using h1.trans h3, fun t ht => ?_, h5, fun h => h6 (hparams ▸ h)⟩
      rcases List.mem_append.mp ht with ht | ht
      · exact h2 t ht
      · exact h4 t ht

theorem errorEntry_after (s : State) (l : List TraceEntry) : After s (errorEntry (s.advance l)) l := by
  unfold After errorEntry; split <;> rfl

theorem busWrite_sound (bytes : List Byte) (s : State) : (busWrite bytes s).sound s := by
  rcases busWrite_cases bytes s with h | ⟨e, h⟩ | h <;> rw [h]
  · exact ⟨_, rfl, by simp [okWrite, BusOutcome.isErr]⟩
  · exact ⟨[], _, errorEntry_after s _, by simp, rfl, fun hp => by simp [errorEntry_cache, hp]⟩
  · trivial

theorem busWriteRead_sound (reg : Byte) (s : State) : (busWriteRead [reg] s).sound s := by
  rcases busWriteRead_cases reg s with ⟨d, h⟩ | ⟨e, h⟩ | h <;> rw [h]
  · exact ⟨_, rfl, by simp [okRead, BusOutcome.isErr]⟩
  · exact ⟨[], _, errorEntry_after s _, by simp, rfl, fun hp => by simp [errorEntry_cache, hp]⟩
  · trivial

theorem ensurePage_sound (p : Page) (s : State) : (ensurePage p s).sound s := by
  unfold ensurePage
  split
  · exact ⟨[], After.refl s, by simp⟩
  · refine Progress.sound_andThen (Progress.sound_andThen (busWrite_sound _ _) fun _ s' _ => busWrite_sound _ _) ?_
    intro _ s' _
    exact ⟨[], by simp [After], by simp⟩

theorem writeOnPage_sound (p : Page) (bytes : List Byte) (s : State) : (writeOnPage p bytes s).sound s :=
  Progress.sound_andThen (ensurePage_sound p s) fun _ _ _ => busWrite_sound _ _

theorem readOnPage_sound (p : Page) (reg : Byte) (s : State) : (readOnPage p [reg] s).sound s :=
  Progress.sound_andThen (ensurePage_sound p s) fun _ _ _ => busWriteRead_sound _ _

theorem runScript_sound (c : List (Page × List Byte)) (s : State) : (runScript c s).sound s := by
  induction c generalizing s with
  | nil => exact ⟨[], After.refl s, by simp⟩
  | cons pb c ih => exact Progress.sound_andThen (writeOnPage_sound _ _ _) fun _ s' _ => ih s'

/-! ### The end of a command -/

/-- Everything a command that answers OK or an error can answer. -/
theorem respondOk_next {p : Progress Unit} {t : State} (h : respondOk p = .next t) :
    (∃ u s, p = .done u s ∧ t = s.respond .ok) ∨ (∃ e s, p = .aborted e s ∧ t = s.respond (.errTransport e)) := by
  cases p with
  | done u s => cases h; exact .inl ⟨u, s, rfl, rfl⟩
  | aborted e s => cases h; exact .inr ⟨e, s, rfl, rfl⟩
  | silent => cases h

/-- Everything a command that answers OK_DATA or an error can answer. -/
theorem respondData_next {p : Progress ReadData} {t : State} (h : respondData p = .next t) :
    (∃ d s, p = .done d s ∧ t = s.respond (.okData (firstByte d))) ∨
    (∃ e s, p = .aborted e s ∧ t = s.respond (.errTransport e)) := by
  cases p with
  | done d s => cases h; exact .inl ⟨d, s, rfl, rfl⟩
  | aborted e s => cases h; exact .inr ⟨e, s, rfl, rfl⟩
  | silent => cases h

@[simp] theorem respondOk_done (u : Unit) (s : State) : respondOk (.done u s) = .next (s.respond .ok) := rfl
@[simp] theorem respondOk_aborted (e : TransportError) (s : State) :
    respondOk (.aborted e s) = .next (s.respond (.errTransport e)) := rfl
@[simp] theorem respondOk_silent : respondOk .silent = .fault .transportNeverAnswers := rfl
@[simp] theorem respondData_done (d : ReadData) (s : State) :
    respondData (.done d s) = .next (s.respond (.okData (firstByte d))) := rfl
@[simp] theorem respondData_aborted (e : TransportError) (s : State) :
    respondData (.aborted e s) = .next (s.respond (.errTransport e)) := rfl
@[simp] theorem respondData_silent : respondData .silent = .fault .transportNeverAnswers := rfl

end Sys2Proof.Machine
end

