-- ==== Sys2Proof/Laws/Exec.lean ====
section
/-! SUPPORT. Everything a command can do, once: the inversion of `exec`. -/

namespace Sys2Proof.Machine

/-- `t` differs from `s` in the frame store at most. -/
def OnlyFrame (s t : State) : Prop := t = { s with s0 := t.s0, s1 := t.s1 }

theorem OnlyFrame.trans {s t u : State} (h : OnlyFrame s t) (h' : OnlyFrame t u) : OnlyFrame s u := by
  unfold OnlyFrame at *
  rw [h', h]

theorem memWrite_onlyFrame (k : Channel) (v : Byte) (s : State) : OnlyFrame s (memWrite k v s) := by
  unfold OnlyFrame memWrite
  cases (loc k).1 <;> rfl

theorem writePixel_onlyFrame (x : Fin Config.gridW) (y : Fin Config.gridH) (r g b : Byte) (s : State) :
    OnlyFrame s (writePixel x y r g b s) :=
  ((memWrite_onlyFrame _ _ _).trans (memWrite_onlyFrame _ _ _)).trans (memWrite_onlyFrame _ _ _)

/-- A halted block answers every command with the latched fault (R148). -/
theorem exec_of_halted (i : Instr) {s : State} (h : s.halted = true) :
    exec i s = .next (s.respond (.fault s.faultKind)) := by
  cases i <;>
    simp [exec, execSetLed, execSetPixel, execSelectPage, execReset, execSetGlobalVoltage, execGetGlobalVoltage,
      execSetSoftwareShutdownModeOff, execGetSoftwareShutdownMode, execSetAllLedScales, execWriteLedMatrix, execSetLed0,
      execSetLed1, execSetLeds, h]

/-- What a command that answers a next state can have done: a fault; unit M's stores; unit P's steps, done or aborted. -/
inductive CommandEffect (i : Instr) (s t : State) : Prop where
  /-- The latch is set (or was set, to the same kind) and nothing else has changed. -/
  | fault (k : FaultKind) (ht : t = ({ s with halted := true, faultKind := k } : State).respond (.fault k))
  /-- A unit M command: the frame store alone has changed. -/
  | stored (u : State) (hi : i.isUnitM = true) (hu : OnlyFrame s u) (ht : t = u.respond .ok)
  /-- A unit P command whose transactions were all answered `ok`. -/
  | completed (r : Response) (added : List TraceEntry) (c : PageCache) (x : Session) (hi : i.isUnitM = false)
      (hr : r = .ok ∨ ∃ d, r = .okData d) (hok : ∀ e ∈ added, e.outcome.isErr = false)
      (hx : x = if i = .reset then .active else s.sess)
      (ht : t = ({ s.advance added with cache := c, sess := x } : State).respond r)
  /-- A unit P command that ended at its first failed transaction, its last. -/
  | aborted (e : TransportError) (added : List TraceEntry) (last : TraceEntry) (c : PageCache) (x : Session)
      (hi : i.isUnitM = false) (hok : ∀ e ∈ added, e.outcome.isErr = false) (hlast : last.outcome = .err e)
      (hc : s.params.cacheOnError = .invalidate → c = .unknown) (hx : x = if i = .reset then .noSession else s.sess)
      (ht : t = ({ s.advance (added ++ [last]) with cache := c, sess := x } : State).respond (.errTransport e))

theorem commandEffect_of_respondOk {i : Instr} {s t : State} {p : Progress Unit} (hi : i.isUnitM = false)
    (hne : i ≠ .reset) (hp : p.sound s) (h : respondOk p = .next t) : CommandEffect i s t := by
  rcases respondOk_next h with ⟨u, s', rfl, rfl⟩ | ⟨e, s', rfl, rfl⟩
  · obtain ⟨l, ha, hl⟩ := hp
    refine .completed .ok l s'.cache s.sess hi (.inl rfl) hl (by simp [hne]) ?_
    rw [ha]; rfl
  · obtain ⟨l, last, ha, hl, he, hc⟩ := hp
    refine .aborted e l last s'.cache s.sess hi hl he hc (by simp [hne]) ?_
    rw [ha]; rfl

theorem commandEffect_of_respondData {i : Instr} {s t : State} {p : Progress ReadData} (hi : i.isUnitM = false)
    (hne : i ≠ .reset) (hp : p.sound s) (h : respondData p = .next t) : CommandEffect i s t := by
  rcases respondData_next h with ⟨d, s', rfl, rfl⟩ | ⟨e, s', rfl, rfl⟩
  · obtain ⟨l, ha, hl⟩ := hp
    refine .completed (.okData (firstByte d)) l s'.cache s.sess hi (.inr ⟨_, rfl⟩) hl (by simp [hne]) ?_
    rw [ha]; rfl
  · obtain ⟨l, last, ha, hl, he, hc⟩ := hp
    refine .aborted e l last s'.cache s.sess hi hl he hc (by simp [hne]) ?_
    rw [ha]; rfl

/-- RESET: from Unknown and NoSession, and a session at its end (R95). -/
theorem commandEffect_reset {s t : State} (h : exec .reset s = .next t) : CommandEffect .reset s t := by
  simp only [exec, execReset] at h
  rcases unlessHalted_next h with ⟨hh, rfl⟩ | ⟨-, h⟩
  · exact .fault s.faultKind (by simp [State.respond, hh])
  have hp := writeOnPage_sound Config.cfgPage softwareResetBytes { s with cache := .unknown, sess := .noSession }
  rcases respondOk_next h with ⟨u, s', h1, rfl⟩ | ⟨e, s', h1, rfl⟩
  · obtain ⟨_, s1, h2, h3⟩ := andThen_eq_done h1
    cases h3
    rw [h2] at hp
    obtain ⟨l, ha, hl⟩ := hp
    refine .completed .ok l s1.cache .active rfl (.inl rfl) hl rfl ?_
    rw [ha]; rfl
  · rcases andThen_eq_aborted h1 with h2 | ⟨_, s1, h2, h3⟩
    · rw [h2] at hp
      obtain ⟨l, last, ha, hl, he, hc⟩ := hp
      refine .aborted e l last s'.cache .noSession rfl hl he hc rfl ?_
      rw [ha]; rfl
    · cases h3

/-- Everything a command can do. -/
theorem exec_effect {i : Instr} {s t : State} (h : exec i s = .next t) : CommandEffect i s t := by
  cases hh : s.halted with
  | true =>
    rw [exec_of_halted i hh] at h
    cases h
    exact .fault s.faultKind (by simp [State.respond, hh])
  | false =>
    cases i
    case reset => exact commandEffect_reset h
    case setLed =>
      simp only [exec, execSetLed, unlessHalted_of_running _ hh] at h
      split at h
      · cases h; exact .stored _ rfl (memWrite_onlyFrame _ _ _) rfl
      · exact .fault _ (raiseFault_next h)
    case setPixel =>
      simp only [exec, execSetPixel, unlessHalted_of_running _ hh] at h
      split at h
      · cases h; exact .stored _ rfl (writePixel_onlyFrame _ _ _ _ _ _) rfl
      · exact .fault _ (raiseFault_next h)
    all_goals
      simp only [exec, execSelectPage, execSetGlobalVoltage, execGetGlobalVoltage, execSetSoftwareShutdownModeOff,
        execGetSoftwareShutdownMode, execSetAllLedScales, execWriteLedMatrix, execSetLed0, execSetLed1, execSetLeds,
        unlessHalted_of_running _ hh] at h
      rcases requireSession_next h with ⟨-, h⟩ | ⟨-, h⟩
      · exact .fault _ (raiseFault_next h)
    case selectPage.inr =>
      split at h
      · exact commandEffect_of_respondOk rfl (by simp) (ensurePage_sound _ _) h
      · exact .fault _ (raiseFault_next h)
    case setGlobalVoltage.inr => exact commandEffect_of_respondOk rfl (by simp) (writeOnPage_sound _ _ _) h
    case getGlobalVoltage.inr => exact commandEffect_of_respondData rfl (by simp) (readOnPage_sound _ _ _) h
    case setSoftwareShutdownModeOff.inr =>
      exact commandEffect_of_respondOk rfl (by simp)
        (Progress.sound_andThen (readOnPage_sound _ _ _) fun _ _ _ => busWrite_sound _ _) h
    case getSoftwareShutdownMode.inr => exact commandEffect_of_respondData rfl (by simp) (readOnPage_sound _ _ _) h
    case setAllLedScales.inr =>
      exact commandEffect_of_respondOk rfl (by simp)
        (Progress.sound_andThen (writeOnPage_sound _ _ _) fun _ _ _ => writeOnPage_sound _ _ _) h
    case writeLedMatrix.inr =>
      exact commandEffect_of_respondOk rfl (by simp)
        (Progress.sound_andThen (writeOnPage_sound _ _ _) fun _ _ _ => writeOnPage_sound _ _ _) h
    all_goals exact commandEffect_of_respondOk rfl (by simp) (runScript_sound _ _) h

/-- Everything one step can do. -/
theorem step_cases {s t : State} (h : step s = .next t) :
    (s.port = [] ∧ t = s) ∨ (∃ rest, s.port = .hardwareReset :: rest ∧ t = hardwareReset s) ∨
    (∃ w rest i, s.port = .command w :: rest ∧ decode w = .ok i ∧ exec i s = .next t) ∨
    (∃ w rest why, s.port = .command w :: rest ∧ decode w = .error why ∧ illegalWord s = .next t) := by
  cases hp : s.port with
  | nil =>
    simp only [step, fetch, hp, List.head?_nil, Host.Outcome.next.injEq] at h
    exact .inl ⟨rfl, h.symm⟩
  | cons ev rest =>
    cases ev with
    | hardwareReset =>
      simp only [step, fetch, hp, List.head?_cons, Host.Outcome.next.injEq] at h
      exact .inr (.inl ⟨rest, rfl, h.symm⟩)
    | command w =>
      simp only [step, fetch, hp, List.head?_cons] at h
      cases hd : decode w with
      | ok i => exact .inr (.inr (.inl ⟨w, rest, i, rfl, hd, by simpa [hd] using h⟩))
      | error why => exact .inr (.inr (.inr ⟨w, rest, why, rfl, hd, by simpa [hd] using h⟩))

/-- What an illegal word does (R57, R145): the latch, and the response. -/
theorem illegalWord_next {s t : State} (h : illegalWord s = .next t) :
    ∃ k, t = ({ s with halted := true, faultKind := k } : State).respond (.fault k) := by
  rcases unlessHalted_next h with ⟨hh, rfl⟩ | ⟨-, h⟩
  · exact ⟨s.faultKind, by simp [State.respond, hh]⟩
  · exact ⟨_, raiseFault_next h⟩

end Sys2Proof.Machine
end

