-- ==== Sys2Proof/Laws/Memory.lean ====
section
/-! SUPPORT. The frame store's memory: a read after a write, and that every write keeps the canonical form. -/

namespace Sys2Proof.Machine

/-- A position below every listed one reads as unlisted. -/
theorem read_of_all_lt {m : Memory} {a : Nat} (h : ∀ c ∈ m, a < c.1) : Memory.read m a = unlistedByte := by
  induction m with
  | nil => rfl
  | cons c m ih =>
    obtain ⟨b, v⟩ := c
    have hb : a < b := h (b, v) (by simp)
    simp only [Memory.read, if_neg (Nat.ne_of_lt hb)]
    exact ih fun c hc => h c (by simp [hc])

/-- What the canonical form says of a memory with a first entry. -/
theorem wf_cons {a : Nat} {v : Byte} {m : Memory} :
    Memory.wf ((a, v) :: m) = true ↔ v ≠ unlistedByte ∧ (∀ c ∈ m, a < c.1) ∧ Memory.wf m = true := by
  simp [Memory.wf, and_assoc]

/-- Every entry of a written memory is the one written or was there before. -/
theorem mem_write {m : Memory} {a : Nat} {v : Byte} {c : Host.Cell} (h : c ∈ Memory.write m a v) :
    c = (a, v) ∨ c ∈ m := by
  induction m with
  | nil => simp only [Memory.write] at h; split at h <;> simp_all
  | cons d m ih =>
    obtain ⟨b, u⟩ := d
    simp only [Memory.write] at h
    repeat' split at h
    all_goals simp only [List.mem_cons] at h ⊢
    all_goals grind

/-- A write keeps the canonical form. -/
theorem write_wf {m : Memory} (a : Nat) (v : Byte) (h : Memory.wf m = true) : Memory.wf (Memory.write m a v) = true := by
  induction m with
  | nil => by_cases hv : v = unlistedByte <;> simp [Memory.write, Memory.wf, hv]
  | cons d m ih =>
    obtain ⟨b, u⟩ := d
    obtain ⟨hu, hb, hm⟩ := wf_cons.mp h
    simp only [Memory.write]
    split
    · rename_i hab
      split
      · exact h
      · rename_i hv
        refine wf_cons.mpr ⟨hv, ?_, h⟩
        intro c hc
        rcases List.mem_cons.mp hc with rfl | hc
        · exact hab
        · exact Nat.lt_trans hab (hb c hc)
    · rename_i hab
      split
      · rename_i heq
        split
        · exact hm
        · rename_i hv
          exact wf_cons.mpr ⟨hv, heq ▸ hb, hm⟩
      · rename_i hne
        refine wf_cons.mpr ⟨hu, ?_, ih hm⟩
        intro c hc
        rcases mem_write hc with rfl | hc
        · show b < a
          omega
        · exact hb c hc

/-- A position reads what was last written to it. -/
theorem read_write_same {m : Memory} (a : Nat) (v : Byte) (h : Memory.wf m = true) :
    Memory.read (Memory.write m a v) a = v := by
  induction m with
  | nil => by_cases hv : v = unlistedByte <;> simp [Memory.write, Memory.read, hv]
  | cons d m ih =>
    obtain ⟨b, u⟩ := d
    obtain ⟨-, hb, hm⟩ := wf_cons.mp h
    simp only [Memory.write]
    split
    · rename_i hab
      split
      · rename_i hv
        rw [hv]
        apply read_of_all_lt
        intro c hc
        rcases List.mem_cons.mp hc with rfl | hc
        · exact hab
        · exact Nat.lt_trans hab (hb c hc)
      · simp [Memory.read]
    · split
      · rename_i heq
        split
        · rename_i hv
          rw [hv]
          exact read_of_all_lt (heq ▸ hb)
        · simp [Memory.read]
      · rename_i hne
        simp only [Memory.read, if_neg hne]
        exact ih hm

/-- A write leaves every other position alone. -/
theorem read_write_other {m : Memory} {a a' : Nat} (v : Byte) (h : a' ≠ a) :
    Memory.read (Memory.write m a v) a' = Memory.read m a' := by
  induction m with
  | nil => by_cases hv : v = unlistedByte <;> simp [Memory.write, Memory.read, hv, h]
  | cons d m ih =>
    obtain ⟨b, u⟩ := d
    simp only [Memory.write]
    repeat' split
    all_goals simp_all [Memory.read]

/-- A write to a data position keeps every listed position a data position. -/
theorem write_dataOnly {m : Memory} {len a : Nat} (v : Byte) (h : Memory.dataOnly len m = true) (h0 : 0 < a)
    (hl : a < len) : Memory.dataOnly len (Memory.write m a v) = true := by
  simp only [Memory.dataOnly, List.all_eq_true] at h ⊢
  intro c hc
  rcases mem_write hc with rfl | hc
  · simp [h0, hl]
  · exact h c hc

/-- Where only data positions are listed the command byte reads 0. -/
theorem read_commandByte {m : Memory} {len : Nat} (h : Memory.dataOnly len m = true) : Memory.read m 0 = unlistedByte := by
  apply read_of_all_lt
  intro c hc
  simp only [Memory.dataOnly, List.all_eq_true] at h
  have := h c hc
  simp only [Bool.and_eq_true, decide_eq_true_eq] at this
  exact this.1

/-- Equal memories are equal data: canonical memories that read alike are equal. -/
theorem wf_ext {m m' : Memory} (h : Memory.wf m = true) (h' : Memory.wf m' = true)
    (hr : ∀ a, Memory.read m a = Memory.read m' a) : m = m' := by
  induction m generalizing m' with
  | nil =>
    cases m' with
    | nil => rfl
    | cons d m' =>
      obtain ⟨b, u⟩ := d
      have := hr b
      simp only [Memory.read, if_pos] at this
      exact absurd this.symm (wf_cons.mp h').1
  | cons c m ih =>
    obtain ⟨a, v⟩ := c
    obtain ⟨hv, ha, hm⟩ := wf_cons.mp h
    cases m' with
    | nil =>
      have := hr a
      simp only [Memory.read, if_pos] at this
      exact absurd this hv
    | cons d m' =>
      obtain ⟨b, u⟩ := d
      obtain ⟨hu, hb, hm'⟩ := wf_cons.mp h'
      have hab : a = b := by
        rcases Nat.lt_trichotomy a b with hlt | heq | hgt
        · have h1 := hr a
          rw [show Memory.read ((a, v) :: m) a = v by simp [Memory.read]] at h1
          rw [read_of_all_lt (m := (b, u) :: m')] at h1
          · exact absurd h1 hv
          · intro c hc
            rcases List.mem_cons.mp hc with rfl | hc
            · exact hlt
            · exact Nat.lt_trans hlt (hb c hc)
        · exact heq
        · have h1 := hr b
          rw [show Memory.read ((b, u) :: m') b = u by simp [Memory.read]] at h1
          rw [read_of_all_lt (m := (a, v) :: m)] at h1
          · exact absurd h1.symm hu
          · intro c hc
            rcases List.mem_cons.mp hc with rfl | hc
            · exact hgt
            · exact Nat.lt_trans hgt (ha c hc)
      subst hab
      have hvu : v = u := by
        have := hr a
        simpa [Memory.read] using this
      subst hvu
      congr 1
      apply ih hm hm'
      intro a'
      by_cases haa : a' = a
      · subst haa
        rw [read_of_all_lt ha, read_of_all_lt hb]
      · have := hr a'
        simpa [Memory.read, haa] using this

end Sys2Proof.Machine
end

