-- ==== Sys2Proof/Laws/PerInstr.lean ====
section
/-! SUPPORT. Facts about every command as syntax, one lemma per constructor: the opcode its word carries is the table's. -/

namespace Sys2Proof.Laws

/-- The opcode column of 30_encoding R55. -/
def opcodeOf : Instr → Byte
  | .setLed _ _                 => 0x01
  | .setPixel _ _ _ _ _         => 0x02
  | .selectPage _               => 0x10
  | .reset                      => 0x11
  | .setGlobalVoltage _         => 0x12
  | .getGlobalVoltage           => 0x13
  | .setSoftwareShutdownModeOff => 0x14
  | .getSoftwareShutdownMode    => 0x15
  | .setAllLedScales _          => 0x16
  | .writeLedMatrix             => 0x17
  | .setLed0                    => 0x18
  | .setLed1                    => 0x19
  | .setLeds                    => 0x1A

/-- The opcode field of a word that begins with an opcode is that opcode (R50). -/
theorem opcodeField_append (op : Byte) (rest : BitVec 32) : opcodeField ((op ++ rest : BitVec (8 + 32))) = op := by
  apply BitVec.eq_of_getLsbD_eq
  intro i hi
  simp only [opcodeField, BitVec.getLsbD_extractLsb, BitVec.getLsbD_append]
  simp
  omega

/-- The opcode field of a command's word is the table's opcode of that command. -/
def OpcodeOfEncode.Statement (i : Instr) : Prop := opcodeField (encode i) = opcodeOf i

theorem OpcodeOfEncode.setLed (idx : Nat) (val : Byte) : OpcodeOfEncode.Statement (.setLed idx val) :=
  opcodeField_append _ _
theorem OpcodeOfEncode.setPixel (x y : Nat) (r g b : Byte) : OpcodeOfEncode.Statement (.setPixel x y r g b) :=
  opcodeField_append _ _
theorem OpcodeOfEncode.selectPage (p : Nat) : OpcodeOfEncode.Statement (.selectPage p) := opcodeField_append _ _
theorem OpcodeOfEncode.reset : OpcodeOfEncode.Statement .reset := opcodeField_append _ _
theorem OpcodeOfEncode.setGlobalVoltage (v : Byte) : OpcodeOfEncode.Statement (.setGlobalVoltage v) :=
  opcodeField_append _ _
theorem OpcodeOfEncode.getGlobalVoltage : OpcodeOfEncode.Statement .getGlobalVoltage := opcodeField_append _ _
theorem OpcodeOfEncode.setSoftwareShutdownModeOff : OpcodeOfEncode.Statement .setSoftwareShutdownModeOff :=
  opcodeField_append _ _
theorem OpcodeOfEncode.getSoftwareShutdownMode : OpcodeOfEncode.Statement .getSoftwareShutdownMode :=
  opcodeField_append _ _
theorem OpcodeOfEncode.setAllLedScales (scale : Byte) : OpcodeOfEncode.Statement (.setAllLedScales scale) :=
  opcodeField_append _ _
theorem OpcodeOfEncode.writeLedMatrix : OpcodeOfEncode.Statement .writeLedMatrix := opcodeField_append _ _
theorem OpcodeOfEncode.setLed0 : OpcodeOfEncode.Statement .setLed0 := opcodeField_append _ _
theorem OpcodeOfEncode.setLed1 : OpcodeOfEncode.Statement .setLed1 := opcodeField_append _ _
theorem OpcodeOfEncode.setLeds : OpcodeOfEncode.Statement .setLeds := opcodeField_append _ _

end Sys2Proof.Laws
end

