-- ==== Sys2Proof/Tests/Slice0.lean ====
section
/-! SUPPORT. Tests of the model on fixed values, taken from the vectors of 95_test_vectors (the table is named at each part), and
for every statement with hypotheses a named witness: a concrete state and operands that meet all of them together. -/

namespace Sys2Proof.Machine.Test

/-! ### Helpers -/

/-- Parameters with concrete scripts: those of the last two rows of V-B1 for SET_LED_0 and SET_LEDS, one invented here for
SET_LED_1 (three payloads, pages 0, 1 and 3). -/
def params (c : CachePolicy) : Params where
  rowMap        := defaultRowMap
  busAddr       := defaultBusAddr
  cacheOnError  := c
  scriptSetLed0 := ⟨⟨0x00, [0xAA, 0xFF, 0xFF]⟩, [], [], []⟩
  scriptSetLed1 := ⟨⟨0x00, [0x11]⟩, [⟨0x00, [0x22]⟩], [], [⟨0x00, [0x33]⟩]⟩
  scriptSetLeds := ⟨⟨0x00, [0xFF]⟩, [], [⟨0x00, [0xAA]⟩], []⟩

/-- A state with this page cache, session and these settled answers; the rest is as after hardware reset. -/
def start (c : PageCache) (x : Session) (l : List Answer) : State :=
  { State.reset with cache := c, sess := x, answers := l, params := params .invalidate }

/-- The same under the Keep policy. -/
def startKeep (c : PageCache) (l : List Answer) : State :=
  { start c .active l with params := params .keep }

/-- A state with these events on the command port. -/
def presented (l : List HostEvent) : State := { start .unknown .noSession [] with port := l }

/-- A halted state with these events on the command port. -/
def stopped (k : FaultKind) (l : List HostEvent) : State := { presented l with halted := true, faultKind := k }

/-- The answer `ok` to a write, or `ok` with a byte to a read. -/
def ok (d : Byte) : Answer := .ok #v[d]

/-- A transport error. -/
def bad : TransportError := ⟨7⟩

/-- A part of the next state, if there is one. -/
def look {α : Type} (o : Host.Outcome State Fault Refusal) (f : State → α) : Option α :=
  match o with
  | .next s    => some (f s)
  | .fault _   => none
  | .refused _ => none

/-- Whether the machine stopped because an answer never came. -/
def waits (o : Host.Outcome State Fault Refusal) : Bool :=
  match o with
  | .fault .transportNeverAnswers => true
  | .next _ | .refused _          => false

/-- The bytes sent (writes) or asked for (reads) on the wire trace, with what came back. -/
def sent (s : State) : List (List Byte × BusOutcome) :=
  s.trace.map fun t => match t.transaction with
    | .write _ b       => (b, t.outcome)
    | .writeRead _ b _ => (b, t.outcome)

/-! ### Well-formedness: a term that each check refuses -/

theorem test_wf_setLed_idx : Instr.wellFormed (.setLed 512 0) = false := by decide
theorem test_wf_setPixel_x : Instr.wellFormed (.setPixel 16 0 0 0 0) = false := by decide
theorem test_wf_setPixel_y : Instr.wellFormed (.setPixel 0 16 0 0 0) = false := by decide
theorem test_wf_selectPage_p : Instr.wellFormed (.selectPage 256) = false := by decide

/-! ### Decoding: the words of V-E, bit by bit as the format has them -/

theorem test_decode_setLed : decode 0b0000000100000001011001000111111100000000 = .ok (.setLed 356 0x7F) := by decide
theorem test_decode_setLed_outOfRange : decode 0x0101FF2000 = .ok (.setLed 511 0x20) := by decide
theorem test_decode_setPixel :
    decode 0b0000001010010001000100010010001000110011 = .ok (.setPixel 9 1 0x11 0x22 0x33) := by decide
theorem test_decode_setPixel_outOfRange : decode 0x02FF000000 = .ok (.setPixel 15 15 0 0 0) := by decide
theorem test_decode_selectPage : decode 0b0001000000000000000000000000000000000100 = .ok (.selectPage 4) := by decide
theorem test_decode_reset : decode 0b0001000100000000000000000000000000000000 = .ok .reset := by decide
theorem test_decode_setGlobalVoltage : decode 0x1200000080 = .ok (.setGlobalVoltage 0x80) := by decide
theorem test_decode_getGlobalVoltage : decode 0x1300000000 = .ok .getGlobalVoltage := by decide
theorem test_decode_setSoftwareShutdownModeOff : decode 0x1400000000 = .ok .setSoftwareShutdownModeOff := by decide
theorem test_decode_getSoftwareShutdownMode : decode 0x1500000000 = .ok .getSoftwareShutdownMode := by decide
theorem test_decode_setAllLedScales : decode 0x1600000040 = .ok (.setAllLedScales 0x40) := by decide
theorem test_decode_writeLedMatrix : decode 0x1700000000 = .ok .writeLedMatrix := by decide
theorem test_decode_setLed0 : decode 0x1800000000 = .ok .setLed0 := by decide
theorem test_decode_setLed1 : decode 0x1900000000 = .ok .setLed1 := by decide
theorem test_decode_setLeds : decode 0x1A00000000 = .ok .setLeds := by decide

/-- The illegal words of V-E. -/
theorem test_decode_illegal :
    decode 0x0000000000 = .error (.unassignedOpcode 0x00) ∧ decode 0x0300000000 = .error (.unassignedOpcode 0x03) ∧
    decode 0x1B00000000 = .error (.unassignedOpcode 0x1B) ∧ decode 0xFF00000000 = .error (.unassignedOpcode 0xFF) ∧
    decode 0x1100000001 = .error (.reservedBitSet 0x11) ∧ decode 0x1000000105 = .error (.reservedBitSet 0x10) ∧
    decode 0x0100000101 = .error (.reservedBitSet 0x01) ∧ decode 0x0102000000 = .error (.reservedBitSet 0x01) ∧
    decode 0x1200010080 = .error (.reservedBitSet 0x12) := by decide

theorem test_encode_setPixel : encode (.setPixel 9 1 0x11 0x22 0x33) = 0x0291112233 := by decide
theorem test_encode_setLed : encode (.setLed 356 0x7F) = 0x0101647F00 := by decide

/-- The host's two readings of a table row. -/
theorem test_tableWord :
    decodeTableWord 40 0x1000000004 = some (.selectPage 4) ∧ decodeTableWord 40 0x1100000001 = none := by decide
theorem test_withFetchWord :
    look (step (State.reset.withFetchWord 40 0x0101647F00)) (fun t => (t.byteAt .s1 177, t.responses)) =
      some (0x7F, [.ok]) := by decide

/-! ### Unit M: V-M1, V-M2, V-M3 -/

theorem test_setLed_split :
    look (exec (.setLed 179 0x10) State.reset) (fun t => (t.s0, t.s1)) = some ([(180, 0x10)], []) ∧
    look (exec (.setLed 180 0x20) State.reset) (fun t => (t.s0, t.s1)) = some ([], [(1, 0x20)]) := by decide
theorem test_setLed_outOfRange :
    look (exec (.setLed 357 0x20) State.reset) (fun t => (t.s1, t.halted, t.responses)) =
      some ([], true, [.fault .rangeFault]) := by decide
theorem test_setPixel_lastOfS0 :
    look (exec (.setPixel 9 1 0x11 0x22 0x33) State.reset) (fun t => (t.s0, t.s1)) =
      some ([(178, 0x22), (179, 0x11), (180, 0x33)], []) := by decide
theorem test_setPixel_column12 :
    look (exec (.setPixel 12 6 0x11 0x22 0x33) State.reset) (fun t => (t.s0, t.s1)) =
      some ([], [(97, 0x22), (98, 0x11), (99, 0x33)]) := by decide
theorem test_slot : slot 9 8 = 89 ∧ slot 10 0 = 90 ∧ slot 11 4 = 103 ∧ slot 12 8 = 116 := by decide
theorem test_rowMap_checked :
    (rowMapOfTable #v[8, 5, 4, 3, 2, 1, 0, 7, 6]).isSome = true ∧ rowMapOfTable #v[8, 5, 4, 3, 2, 1, 0, 7, 7] = none ∧
    rowMapOfTable #v[9, 5, 4, 3, 2, 1, 0, 7, 6] = none := by decide

/-! ### Unit P: V-P1, V-C1, V-B1 -/

theorem test_selectPage_miss :
    look (exec (.selectPage 0) (start (.page 4) .active [ok 0, ok 0])) (fun t => (sent t, t.cache, t.responses)) =
      some ([([0xFE, 0xC5], .ok), ([0xFD, 0x00], .ok)], .page 0, [.ok]) := by decide
theorem test_selectPage_error :
    look (exec (.selectPage 3) (start (.page 1) .active [ok 0, .err bad])) (fun t => (t.cache, t.responses)) =
      some (.unknown, [.errTransport bad]) ∧
    look (exec (.selectPage 3) (startKeep (.page 1) [ok 0, .err bad])) (fun t => (t.cache, t.responses)) =
      some (.page 1, [.errTransport bad]) := by decide
theorem test_reset_done :
    look (exec .reset (start (.page 4) .active [ok 0, ok 0, ok 0])) (fun t => (sent t, t.cache, t.sess)) =
      some ([([0xFE, 0xC5], .ok), ([0xFD, 0x04], .ok), ([0x3F, 0xAE], .ok)], .page 4, .active) := by decide
theorem test_reset_error :
    look (exec .reset (startKeep (.page 0) [ok 0, ok 0, .err bad])) (fun t => (t.cache, t.sess, t.responses)) =
      some (.page 4, .noSession, [.errTransport bad]) := by decide
theorem test_setGlobalVoltage_otherPage :
    look (exec (.setGlobalVoltage 0x80) (start (.page 1) .active [ok 0, ok 0, ok 0])) (fun t => (sent t, t.cache)) =
      some ([([0xFE, 0xC5], .ok), ([0xFD, 0x04], .ok), ([0x01, 0x80], .ok)], .page 4) := by decide
theorem test_getGlobalVoltage :
    look (exec .getGlobalVoltage (start (.page 4) .active [ok 0x80])) (fun t => (sent t, t.responses)) =
      some ([([0x01], .okData [0x80])], [.okData 0x80]) := by decide
theorem test_setSoftwareShutdownModeOff :
    look (exec .setSoftwareShutdownModeOff (start (.page 4) .active [ok 0x08, ok 0])) (fun t => (sent t, t.responses)) =
      some ([([0x00], .okData [0x08]), ([0x00, 0x09], .ok)], [.ok]) := by decide
theorem test_setSoftwareShutdownModeOff_error :
    look (exec .setSoftwareShutdownModeOff (start (.page 4) .active [.err bad])) (fun t => (sent t, t.cache)) =
      some ([([0x00], .err bad)], .unknown) := by decide
theorem test_getSoftwareShutdownMode :
    look (exec .getSoftwareShutdownMode (start (.page 4) .active [ok 0xA8])) (fun t => (sent t, t.responses)) =
      some ([([0x00], .okData [0xA8])], [.okData 0xA8]) := by decide
theorem test_setAllLedScales_cached :
    look (exec (.setAllLedScales 0) (start (.page 2) .active [ok 0, ok 0, ok 0, ok 0]))
      (fun t => ((sent t).map fun b => (b.1.length, b.1.getLast?), t.cache)) =
      some ([(181, some 0), (2, some 0xC5), (2, some 0x03), (178, some 0)], .page 3) := by decide +kernel
theorem test_writeLedMatrix_torn :
    look (exec .writeLedMatrix { start (.page 4) .active [ok 0, ok 0, ok 0, ok 0, .err bad] with s0 := [(180, 0x33)] })
      (fun t => ((sent t).map fun b => (b.1.length, b.1.getLast?), t.s0, t.cache)) =
      some ([(2, some 0xC5), (2, some 0x00), (181, some 0x33), (2, some 0xC5), (2, some 0x01)], [(180, 0x33)], .unknown) := by
  decide +kernel
theorem test_setLed0 :
    look (exec .setLed0 (start (.page 4) .active [ok 0, ok 0, ok 0])) (fun t => (sent t, t.cache)) =
      some ([([0xFE, 0xC5], .ok), ([0xFD, 0x00], .ok), ([0x00, 0xAA, 0xFF, 0xFF], .ok)], .page 0) := by decide
theorem test_setLed1 :
    look (exec .setLed1 (start (.page 0) .active [ok 0, ok 0, ok 0, ok 0, ok 0, ok 0, ok 0]))
      (fun t => ((sent t).map (·.1), t.cache)) =
      some ([[0x00, 0x11], [0xFE, 0xC5], [0xFD, 0x01], [0x00, 0x22], [0xFE, 0xC5], [0xFD, 0x03], [0x00, 0x33]], .page 3) := by
  decide
theorem test_setLeds_error :
    look (exec .setLeds (start (.page 4) .active [ok 0, ok 0, ok 0, ok 0, .err bad])) (fun t => ((sent t).map (·.1), t.cache)) =
      some ([[0xFE, 0xC5], [0xFD, 0x00], [0x00, 0xFF], [0xFE, 0xC5], [0xFD, 0x02]], .unknown) := by decide
theorem test_transport_never_answers :
    waits (exec (.selectPage 0) (start (.page 4) .active [ok 0, .never])) = true := by decide

/-! ### Faults: V-P1, V-X1 -/

theorem test_noSession_before_range :
    look (exec (.selectPage 9) (start .unknown .noSession [])) (fun t => (t.responses, t.halted)) =
      some ([.fault .noSession], true) := by decide
theorem test_illegal_word :
    look (step (presented [.command 0x0300000000])) (fun t => (t.responses, t.halted)) =
      some ([.fault .illegalCommand], true) := by decide
theorem test_latched_kind :
    look (step (stopped .rangeFault [.command 0x0300000000])) (fun t => (t.responses, t.faultKind, t.port)) =
      some ([.fault .rangeFault], .rangeFault, []) := by decide
theorem test_hardware_reset :
    look (step { stopped .noSession [.hardwareReset] with s0 := [(5, 9)] }) (fun t => (t.s0, t.halted, t.sess)) =
      some ([], false, .noSession) := by decide

/-! ### Witnesses: each meets all the hypotheses of the statement it is named after -/

/-- A state with a session and page 2 cached, in which every transaction is answered `ok`. -/
def quiet : State := start (.page 2) .active (List.replicate 9 (ok 0x08))

theorem quiet_ready : quiet.ready := ⟨rfl, rfl⟩
theorem quiet_running : quiet.running := rfl
theorem quiet_answersOk : ∀ n, n ≤ 9 → answersOk quiet n := by
  intro n h
  refine ⟨h, fun a ha => ?_⟩
  rw [List.eq_of_mem_replicate (List.mem_of_mem_take ha)]
  rfl
theorem start_frameOk (c : PageCache) (x : Session) (l : List Answer) : (start c x l).frameOk := ⟨rfl, rfl, rfl, rfl⟩
theorem start_scriptsPlain (c : PageCache) (x : Session) (l : List Answer) : (start c x l).params.scriptsPlain := by
  simp [start, params, Params.scriptsPlain]

theorem witness_EveryCommandDecodesBack :
    Instr.wellFormed (.setLed 511 255) = true ∧ Instr.wellFormed (.setPixel 15 15 255 255 255) = true ∧
    Instr.wellFormed (.selectPage 255) = true ∧ Instr.wellFormed .setLeds = true := by decide
theorem witness_EveryLegalWordEncodesBack : decode 0x0101FFFF00 = .ok (.setLed 511 255) := by decide
theorem witness_StepRunsTheDecodedCommand :
    (presented [.command 0x1100000000]).port = .command 0x1100000000 :: [] ∧ decode 0x1100000000 = .ok .reset :=
  ⟨rfl, by decide⟩
theorem witness_IllegalWordSetsTheLatch :
    (presented [.command 0x1100000001]).running ∧
    (presented [.command 0x1100000001]).port = .command 0x1100000001 :: [] ∧
    decode 0x1100000001 = .error (.reservedBitSet 0x11) := ⟨rfl, rfl, by decide⟩
theorem witness_HardwareResetRestoresResetValues :
    (stopped .noSession [.hardwareReset, .command 0]).port = .hardwareReset :: [.command 0] := rfl
theorem witness_HaltedBlockAnswersTheLatchedFault :
    (stopped .noSession [.command 0x1100000000]).halted = true ∧
    (stopped .noSession [.command 0x1100000000]).port = .command 0x1100000000 :: [] ∧
    (stopped .noSession [.hardwareReset]).halted = true ∧
    ∃ t, step (stopped .noSession [.hardwareReset]) = .next t ∧ t.halted = false :=
  ⟨rfl, rfl, rfl, _, rfl, rfl⟩
theorem witness_HaltedRunChangesNothing :
    (stopped .rangeFault [.command 0, .command 0x1100000000, .hardwareReset]).halted = true ∧
    (stopped .rangeFault [.command 0, .command 0x1100000000, .hardwareReset]).port =
      [0, 0x1100000000].map HostEvent.command ++ [.hardwareReset] := ⟨rfl, rfl⟩
theorem witness_SessionCheckComesBeforeEverything :
    Instr.needsSession (.selectPage 9) = true ∧ Instr.needsSession .setLeds = true ∧ (presented []).running ∧
    (presented []).sess = .noSession := ⟨rfl, rfl, rfl, rfl⟩
theorem witness_OutOfRangeOperandFaults :
    Instr.inRange (.setLed 357 0) = false ∧ Instr.inRange (.setPixel 13 8 0 0 0) = false ∧
    Instr.inRange (.setPixel 12 9 0 0 0) = false ∧ Instr.inRange (.selectPage 5) = false ∧ quiet.running ∧
    quiet.sess = .active := by
  exact ⟨by decide, by decide, by decide, by decide, rfl, rfl⟩
theorem witness_FaultsArePrecise :
    ∃ t, exec (.selectPage 5) quiet = .next t ∧ t.responses = quiet.responses ++ [.fault .rangeFault] := ⟨_, rfl, rfl⟩
theorem witness_SlotAndBaseFollowTheFormulas : (9 < 13 ∧ 10 < 13 ∧ 12 < 13) ∧ (0 < 9 ∧ 8 < 9) := by decide
theorem witness_OrderFollowsColumnParity :
    12 ∈ [1, 3, 5, 7, 9, 11, 12] ∧ 0 ∈ [0, 2, 4, 6, 8, 10] ∧ 10 ∈ [0, 2, 4, 6, 8, 10] := by decide
/-- Slots 59 and 60 are the last of S0 and the first of S1. -/
theorem witness_PixelNeverStraddlesTheSequences :
    slot (9 : Fin 13) (rowOf defaultRowMap 1) = 59 ∧ slot (0 : Fin 13) (rowOf defaultRowMap 8) = 60 := by decide
theorem witness_SetLedStoresOneByte : 0 < 357 ∧ 356 < 357 ∧ quiet.running ∧ quiet.frameOk :=
  ⟨by decide, by decide, rfl, start_frameOk _ _ _⟩
theorem witness_SetPixelStoresThreeBytes : (0 < 13 ∧ 12 < 13) ∧ (0 < 9 ∧ 8 < 9) ∧ quiet.running ∧ quiet.frameOk :=
  ⟨by decide, by decide, rfl, start_frameOk _ _ _⟩
theorem witness_PixelWritesCommute : quiet.frameOk ∧ ((0 : Fin 13) ≠ 12 ∨ (0 : Fin 9) ≠ 0) ∧
    ((0 : Fin 13) ≠ 0 ∨ (0 : Fin 9) ≠ 8) := ⟨start_frameOk _ _ _, by decide, by decide⟩
theorem witness_UnitMIgnoresUnitP :
    Instr.isUnitM (.setPixel 12 8 1 2 3) = true ∧ ∃ t, exec (.setPixel 12 8 1 2 3) quiet = .next t := ⟨rfl, _, rfl⟩
/-- A hit at page 2 and a miss at pages 0 and 4. -/
theorem witness_SelectPageCompletes :
    quiet.ready ∧ answersOk quiet (selectEntries quiet ⟨2, by decide⟩).length ∧
    answersOk quiet (selectEntries quiet ⟨0, by decide⟩).length ∧ answersOk quiet (selectEntries quiet ⟨4, by decide⟩).length :=
  ⟨quiet_ready, quiet_answersOk _ (by decide), quiet_answersOk _ (by decide), quiet_answersOk _ (by decide)⟩
theorem witness_SelectPageTwiceSelectsOnce : 4 < 5 ∧ quiet.ready ∧ answersOk quiet 2 :=
  ⟨by decide, quiet_ready, quiet_answersOk _ (by decide)⟩
theorem witness_ResetCompletes : quiet.running ∧ answersOk quiet 3 := ⟨rfl, quiet_answersOk _ (by decide)⟩
theorem witness_SetGlobalVoltageCompletes :
    quiet.ready ∧ answersOk quiet ((selectEntries quiet 4).length + 1) := ⟨quiet_ready, quiet_answersOk _ (by decide)⟩
theorem witness_GetCommandsReturnTheByteRead :
    quiet.ready ∧ answersOkThen quiet (selectEntries quiet 4).length (.ok #v[0x08]) :=
  ⟨quiet_ready, quiet_answersOk _ (by decide), rfl⟩
theorem witness_ShutdownModeOffWritesBackTheByteRead :
    quiet.ready ∧ answersOkThen quiet (selectEntries quiet 4).length (.ok #v[0x08]) ∧
    answersOk quiet ((selectEntries quiet 4).length + 2) :=
  ⟨quiet_ready, ⟨quiet_answersOk _ (by decide), rfl⟩, quiet_answersOk _ (by decide)⟩
theorem witness_SetAllLedScalesCompletes :
    quiet.ready ∧ answersOk quiet ((selectEntries quiet 2).length + 4) := ⟨quiet_ready, quiet_answersOk _ (by decide)⟩
theorem witness_WriteLedMatrixCompletes :
    quiet.ready ∧ answersOk quiet ((selectEntries quiet 0).length + 4) := ⟨quiet_ready, quiet_answersOk _ (by decide)⟩
theorem witness_FramePayloadsAreTheSequences : quiet.frameOk ∧ 180 < 181 ∧ 177 < 178 :=
  ⟨start_frameOk _ _ _, by decide, by decide⟩
theorem witness_ScriptCommandsRunTheirScripts :
    quiet.ready ∧ answersOk quiet (scriptEntries quiet quiet.cache (scriptPairs quiet.params.scriptSetLed0)).length ∧
    answersOk quiet (scriptEntries quiet quiet.cache (scriptPairs quiet.params.scriptSetLed1)).length ∧
    answersOk quiet (scriptEntries quiet quiet.cache (scriptPairs quiet.params.scriptSetLeds)).length :=
  ⟨quiet_ready, quiet_answersOk _ (by decide), quiet_answersOk _ (by decide), quiet_answersOk _ (by decide)⟩
theorem witness_EveryAnsweredCommandCompletes :
    answersCome quiet (maxTransactions quiet.params .setLed1) ∧ answersCome (start .unknown .active [])
      (maxTransactions (start .unknown .active []).params (.setLed 356 1)) := by
  exact ⟨⟨by decide, by decide⟩, ⟨by decide, by decide⟩⟩
theorem witness_UnansweredTransactionWaitsForEver :
    Instr.isUnitM (.selectPage 4) = false ∧ Instr.inRange (.selectPage 4) = true ∧
    (start (.page 2) .active [.never]).running ∧ (start (.page 2) .active [.never]).sess = .active ∧
    (∀ p q, Instr.selectPage 4 = .selectPage p → (start (.page 2) .active [.never]).cache = .page q → q.val ≠ p) ∧
    (start (.page 2) .active [.never]).answers = .never :: [] := by
  refine ⟨rfl, rfl, rfl, rfl, ?_, rfl⟩
  intro p q hp hq
  cases hp
  cases hq
  decide
theorem witness_FailedSelectLeavesThePageUnknown :
    4 < 5 ∧ (start (.page 1) .active [.err bad]).ready ∧ (start (.page 1) .active [.err bad]).cache ≠ .page 4 ∧
    (start (.page 1) .active [.err bad]).answers = .err bad :: [] ∧
    (startKeep (.page 1) [ok 0, .err bad]).ready ∧ (startKeep (.page 1) [ok 0, .err bad]).cache ≠ .page 0 ∧
    (startKeep (.page 1) [ok 0, .err bad]).answers = .ok #v[0] :: .err bad :: [] :=
  ⟨by decide, ⟨rfl, rfl⟩, by decide, rfl, ⟨rfl, rfl⟩, by decide, rfl⟩
theorem witness_FailedResetLeavesNoSession :
    (start .unknown .noSession [.err bad]).running ∧ (start .unknown .noSession [.err bad]).answers = .err bad :: [] ∧
    (start .unknown .noSession [ok 0, .err bad]).answers = .ok #v[0] :: .err bad :: [] ∧
    (start .unknown .noSession [ok 0, ok 1, .err bad]).answers = .ok #v[0] :: .ok #v[1] :: .err bad :: [] :=
  ⟨rfl, rfl, rfl, rfl⟩
theorem witness_FailedScalesNeverReachPageThree :
    (start (.page 2) .active [ok 0, .err bad]).ready ∧ (start (.page 4) .active [ok 0, .err bad]).ready ∧
    (start (.page 2) .active [ok 0, .err bad]).answers = .ok #v[0] :: .err bad :: [] := ⟨⟨rfl, rfl⟩, ⟨rfl, rfl⟩, rfl⟩
theorem witness_FailedShutdownModeOffIsNotRetried :
    (start (.page 4) .active [.err bad]).ready ∧ (start (.page 4) .active [.err bad]).cache = .page 4 ∧
    (start (.page 4) .active [.err bad]).answers = .err bad :: [] ∧
    (start (.page 4) .active [ok 0xFF, .err bad]).answers = .ok #v[0xFF] :: .err bad :: [] := ⟨⟨rfl, rfl⟩, rfl, rfl, rfl⟩
theorem witness_FirstTransportErrorEndsTheCommand :
    ∃ t, exec .reset (start (.page 0) .active [ok 0, .err bad]) = .next t ∧ t.responses = [] ++ [.errTransport bad] :=
  ⟨_, rfl, rfl⟩
theorem witness_SuccessfulCommandHasNoError :
    ∃ t u, exec (.selectPage 0) quiet = .next t ∧ t.responses = quiet.responses ++ [.ok] ∧
      exec .getGlobalVoltage quiet = .next u ∧ u.responses = quiet.responses ++ [.okData 0x08] := ⟨_, _, rfl, rfl, rfl, rfl⟩
theorem witness_StaleCacheTrapOfTheKeepPolicy :
    (startKeep (.page 2) [ok 0, .err bad, ok 0, ok 0]).ready ∧
    (startKeep (.page 2) [ok 0, .err bad, ok 0, ok 0]).cache = .page 2 ∧ (2 : Page) ≠ 3 ∧
    (startKeep (.page 2) [ok 0, .err bad, ok 0, ok 0]).answers = .ok #v[0] :: .err bad :: .ok #v[0] :: .ok #v[0] :: [] ∧
    (startKeep (.page 2) [ok 0, .err bad, ok 0, ok 0]).params.cacheOnError = .keep ∧
    (start (.page 2) .active [ok 0, .err bad, ok 0, ok 0]).params.cacheOnError = .invalidate :=
  ⟨⟨rfl, rfl⟩, rfl, by decide, rfl, rfl, rfl⟩
/-- Also the hypotheses of the statements about every command that answers a next state. -/
theorem witness_EveryCommandRespondsExactlyOnce : ∃ t, exec (.setGlobalVoltage 0xFF) quiet = .next t := ⟨_, rfl⟩
theorem witness_UnitPIgnoresTheFrameStore :
    Instr.isUnitM (.selectPage 4) = false ∧ ∃ t, exec (.selectPage 4) quiet = .next t := ⟨rfl, _, rfl⟩
theorem witness_ParametersNeverChange : ∃ t, step (presented [.command 0x0100000100]) = .next t := ⟨_, rfl⟩
theorem witness_WithoutSessionOnlyResetReachesTheWire :
    (start .unknown .noSession [ok 0, ok 0, ok 0]).sess = .noSession ∧
    (∃ t, exec .reset (start .unknown .noSession [ok 0, ok 0, ok 0]) = .next t) ∧
    ∃ t, exec .setLeds (start .unknown .noSession [ok 0, ok 0, ok 0]) = .next t := ⟨rfl, ⟨_, rfl⟩, ⟨_, rfl⟩⟩
theorem witness_EveryTransactionIsOfTheWireVocabulary : ∃ t, exec .setLed1 quiet = .next t := ⟨_, rfl⟩
theorem witness_StepKeepsTheFrameStoreCanonical :
    (presented [.command 0x0101647F00]).frameOk ∧ ∃ t, step (presented [.command 0x0101647F00]) = .next t :=
  ⟨start_frameOk .unknown .noSession [], _, rfl⟩

/-- A state in which a RESET completed and page 4 is cached, with SET_LEDS (0x1A00000000) presented and answered. -/
def afterReset : State :=
  { start (.page 4) .active (List.replicate 9 (ok 0)) with
    trace := [⟨.write 0x30 [0xFE, 0xC5], .ok⟩, ⟨.write 0x30 [0xFD, 0x04], .ok⟩, ⟨.write 0x30 [0x3F, 0xAE], .ok⟩]
    port  := [.command 0x1A00000000] }

theorem afterReset_steps : ∃ t, step afterReset = .next t := ⟨_, rfl⟩
theorem witness_CommandBytesStayZero : afterReset.frameOk ∧ ∃ t, step afterReset = .next t :=
  ⟨start_frameOk .unknown .noSession [], afterReset_steps⟩
theorem witness_StepKeepsTheCacheBackedByTheTrace :
    afterReset.params.scriptsPlain ∧ afterReset.frameOk ∧ afterReset.cacheBacked ∧ ∃ t, step afterReset = .next t := by
  refine ⟨start_scriptsPlain .unknown .noSession [], start_frameOk .unknown .noSession [], ?_, afterReset_steps⟩
  intro p hp
  cases hp
  exact ⟨[], [⟨.write 0x30 [0x3F, 0xAE], .ok⟩], rfl, by decide, by decide⟩
theorem witness_StepKeepsEverySelectUnlocked :
    afterReset.params.scriptsPlain ∧ afterReset.frameOk ∧ afterReset.selectsUnlocked ∧ ∃ t, step afterReset = .next t := by
  refine ⟨start_scriptsPlain .unknown .noSession [], start_frameOk .unknown .noSession [], ?_, afterReset_steps⟩
  intro b t a h ht
  match b, h with
  | [], h => cases h; cases ht
  | [u], h => cases h; exact ⟨[], _, rfl, by decide⟩
  | [_, _], h => cases h; cases ht
  | _ :: _ :: _ :: b, h => simp [afterReset] at h
theorem witness_StepKeepsTheSessionBackedByAReset : afterReset.sessionBacked ∧ ∃ t, step afterReset = .next t :=
  ⟨fun _ => ⟨[], [], rfl⟩, afterReset_steps⟩
/-- The hypotheses of the statement that fails: in a session that has written to the chip a RESET fails at its first write. -/
theorem witness_NoSessionMeansOnlyResetOnTheTrace :
    ({ afterReset with answers := [.err bad], port := [.command 0x1100000000] } : State).sess ≠ .noSession ∧
    ∃ t, step { afterReset with answers := [.err bad], port := [.command 0x1100000000] } = .next t ∧
      t.sess = .noSession ∧ t.halted = false := ⟨by decide, _, rfl, rfl, rfl⟩

end Sys2Proof.Machine.Test
end

section
/-! Proofs of the obligations of 00_scope: a step runs the decoded command (O6), and each unit ignores the state of the other
(O25, O49). That a unit ignores a part of the state is said as a commutation: a command run after that part was replaced answers
what it answers before, with the part replaced. -/

namespace Sys2Proof.Machine

/-- Settles O6: the presented command is at the head of the port, and its decoding picks the branch of `step`. -/
theorem stepRunsTheDecodedCommand : Obligations.StepRunsTheDecodedCommand := by
  intro s w rest i hport hdecode
  have hfetch : fetch s = some (.command w) := by simp [fetch, hport]
  simp only [step, hfetch, hdecode]

/-! ### Replacing a part of the state -/

/-- The state with another frame store. -/
def State.withFrame (m0 m1 : Memory) (s : State) : State := { s with s0 := m0, s1 := m1 }

/-- The state with another page cache and session. -/
def State.withUnitP (c : PageCache) (x : Session) (s : State) : State := { s with cache := c, sess := x }

/-- The answer of a command with its next state replaced; a stop stays as it is. -/
def mapNext (f : State → State) : Host.Outcome State Fault Refusal → Host.Outcome State Fault Refusal
  | .next s    => .next (f s)
  | .fault r   => .fault r
  | .refused r => .refused r

@[simp] theorem mapNext_next (f : State → State) (s : State) : mapNext f (.next s) = .next (f s) := rfl

/-- Where a sequence of steps has got to, with its state replaced. -/
def Progress.mapState {α : Type} (f : State → State) : Progress α → Progress α
  | .done a s    => .done a (f s)
  | .aborted e s => .aborted e (f s)
  | .silent      => .silent

/-- A command commutes with a replacement. -/
def CommandCommutes (f : State → State) (k : State → Host.Outcome State Fault Refusal) : Prop :=
  ∀ s, k (f s) = mapNext f (k s)

/-- A sequence of steps commutes with a replacement. -/
def StepsCommute {α : Type} (f : State → State) (k : State → Progress α) : Prop :=
  ∀ s, k (f s) = (k s).mapState f

/-- A command that commutes answers, from the replaced state, the replaced next state. -/
theorem CommandCommutes.next {f : State → State} {k : State → Host.Outcome State Fault Refusal} {s t : State}
    (hk : CommandCommutes f k) (h : k s = .next t) : k (f s) = .next (f t) := by
  rw [hk s, h, mapNext_next]

/-! ### The checks of R145 and the end of a command -/

/-- A replacement that leaves the fault latch and the ports of commands and responses alone. -/
structure KeepsLatch (f : State → State) : Prop where
  halted : ∀ s, (f s).halted = s.halted
  faultKind : ∀ s, (f s).faultKind = s.faultKind
  respond : ∀ s r, (f s).respond r = f (s.respond r)
  latch : ∀ s k, ({ f s with halted := true, faultKind := k } : State) = f { s with halted := true, faultKind := k }

theorem withFrame_keepsLatch (m0 m1 : Memory) : KeepsLatch (State.withFrame m0 m1) :=
  ⟨fun _ => rfl, fun _ => rfl, fun _ _ => rfl, fun _ _ => rfl⟩

theorem withUnitP_keepsLatch (c : PageCache) (x : Session) : KeepsLatch (State.withUnitP c x) :=
  ⟨fun _ => rfl, fun _ => rfl, fun _ _ => rfl, fun _ _ => rfl⟩

section
variable {f : State → State} {k : State → Host.Outcome State Fault Refusal}

theorem KeepsLatch.raiseFault_commutes (hf : KeepsLatch f) (kind : FaultKind) :
    CommandCommutes f (raiseFault kind) := fun s => by
  simp only [raiseFault, hf.latch, hf.respond, mapNext_next]

theorem KeepsLatch.unlessHalted_commutes (hf : KeepsLatch f) (hk : CommandCommutes f k) :
    CommandCommutes f fun s => unlessHalted s k := by
  intro s
  have hhalted := hf.halted s
  cases hh : s.halted with
  | true =>
    simp only [unlessHalted_of_halted k hh, unlessHalted_of_halted k (hhalted.trans hh), hf.faultKind, hf.respond,
      mapNext_next]
  | false => simp only [unlessHalted_of_running k hh, unlessHalted_of_running k (hhalted.trans hh), hk s]

theorem KeepsLatch.requireSession_commutes (hf : KeepsLatch f) (hsess : ∀ s, (f s).sess = s.sess)
    (hk : CommandCommutes f k) : CommandCommutes f fun s => requireSession s k := by
  intro s
  have hsess := hsess s
  cases hs : s.sess with
  | noSession =>
    simp only [requireSession_of_noSession k hs, requireSession_of_noSession k (hsess.trans hs),
      hf.raiseFault_commutes .noSession s]
  | active => simp only [requireSession_of_active k hs, requireSession_of_active k (hsess.trans hs), hk s]

theorem KeepsLatch.respondOk_commutes {p : State → Progress Unit} (hf : KeepsLatch f) (hp : StepsCommute f p) :
    CommandCommutes f fun s => respondOk (p s) := fun s => by
  simp only [hp s]
  cases p s with
  | done u s' => simp only [Progress.mapState, respondOk_done, hf.respond, mapNext_next]
  | aborted e s' => simp only [Progress.mapState, respondOk_aborted, hf.respond, mapNext_next]
  | silent => rfl

theorem KeepsLatch.respondData_commutes {p : State → Progress ReadData} (hf : KeepsLatch f) (hp : StepsCommute f p) :
    CommandCommutes f fun s => respondData (p s) := fun s => by
  simp only [hp s]
  cases p s with
  | done d s' => simp only [Progress.mapState, respondData_done, hf.respond, mapNext_next]
  | aborted e s' => simp only [Progress.mapState, respondData_aborted, hf.respond, mapNext_next]
  | silent => rfl

/-- Steps that commute one after the other commute together. -/
theorem StepsCommute.andThen {α β : Type} {p : State → Progress α} {q : α → State → Progress β}
    (hp : StepsCommute f p) (hq : ∀ a, StepsCommute f (q a)) : StepsCommute f fun s => (p s).andThen q := fun s => by
  simp only [hp s]
  cases p s with
  | done a s' => exact hq a s'
  | aborted e s' => rfl
  | silent => rfl

end

/-! ### Unit M ignores the page cache and the session (R79) -/

theorem memWrite_withUnitP (k : Channel) (v : Byte) (c : PageCache) (x : Session) (s : State) :
    memWrite k v (s.withUnitP c x) = (memWrite k v s).withUnitP c x := by
  unfold memWrite
  cases (loc k).1 <;> rfl

theorem writePixel_withUnitP (x : Fin Config.gridW) (y : Fin Config.gridH) (r g b : Byte) (c : PageCache) (z : Session)
    (s : State) : writePixel x y r g b (s.withUnitP c z) = (writePixel x y r g b s).withUnitP c z := by
  simp only [writePixel, memWrite_withUnitP]
  rfl

theorem execSetLed_commutes_withUnitP (idx : Nat) (val : Byte) (c : PageCache) (x : Session) :
    CommandCommutes (State.withUnitP c x) (execSetLed idx val) := by
  refine (withUnitP_keepsLatch c x).unlessHalted_commutes fun s => ?_
  by_cases h : idx < Config.nchan
  · simp only [dif_pos h, memWrite_withUnitP, (withUnitP_keepsLatch c x).respond, mapNext_next]
  · simpa only [dif_neg h] using (withUnitP_keepsLatch c x).raiseFault_commutes .rangeFault s

theorem execSetPixel_commutes_withUnitP (x y : Nat) (r g b : Byte) (c : PageCache) (z : Session) :
    CommandCommutes (State.withUnitP c z) (execSetPixel x y r g b) := by
  refine (withUnitP_keepsLatch c z).unlessHalted_commutes fun s => ?_
  by_cases h : x < Config.gridW ∧ y < Config.gridH
  · simp only [dif_pos h, writePixel_withUnitP, (withUnitP_keepsLatch c z).respond, mapNext_next]
  · simpa only [dif_neg h] using (withUnitP_keepsLatch c z).raiseFault_commutes .rangeFault s

/-- A unit M command does the same with any page cache and session. -/
theorem exec_unitM_commutes_withUnitP {i : Instr} (hi : i.isUnitM = true) (c : PageCache) (x : Session) :
    CommandCommutes (State.withUnitP c x) (exec i) := by
  cases i with
  | setLed idx val => exact execSetLed_commutes_withUnitP idx val c x
  | setPixel x' y r g b => exact execSetPixel_commutes_withUnitP x' y r g b c x
  | _ => cases hi

/-- A unit M command leaves the page cache, the session and everything of the transport as it was. -/
theorem exec_unitM_keeps_unitP {i : Instr} {s t : State} (hi : i.isUnitM = true) (h : exec i s = .next t) :
    t.cache = s.cache ∧ t.sess = s.sess ∧ t.trace = s.trace ∧ t.asked = s.asked ∧ t.answers = s.answers := by
  cases exec_effect h with
  | fault k ht => subst ht; exact ⟨rfl, rfl, rfl, rfl, rfl⟩
  | stored u _ hu ht => rw [ht, hu]; exact ⟨rfl, rfl, rfl, rfl, rfl⟩
  | completed _ _ _ _ hP => simp [hi] at hP
  | aborted _ _ _ _ _ hP => simp [hi] at hP

/-- Settles O25: unit M's stores are all that a command of unit M does, and they commute with a change of cache and session. -/
theorem unitMIgnoresUnitP : Obligations.UnitMIgnoresUnitP := by
  intro i s t c x hi h
  obtain ⟨hcache, hsess, htrace, hasked, hanswers⟩ := exec_unitM_keeps_unitP hi h
  exact ⟨hcache, hsess, htrace, hasked, hanswers, (exec_unitM_commutes_withUnitP hi c x).next h⟩

/-! ### Unit P ignores the frame store (R2), but for WRITE_LED_MATRIX (R122) -/

section
variable (m0 m1 : Memory)

theorem errorEntry_withFrame (s : State) : errorEntry (s.withFrame m0 m1) = (errorEntry s).withFrame m0 m1 := by
  cases hp : s.params.cacheOnError <;> simp [errorEntry, State.withFrame, hp]

theorem recordTransaction_withFrame (s : State) (t : Transaction) (o : BusOutcome) :
    (s.withFrame m0 m1).recordTransaction t o = (s.recordTransaction t o).withFrame m0 m1 := rfl

/-- The oracle sees the trace and the transaction, not the frame store (R40). -/
theorem oracleAnswer_withFrame (t : Transaction) (s : State) :
    oracleAnswer t (s.withFrame m0 m1) = oracleAnswer t s := rfl

theorem busWrite_commutes_withFrame (bytes : List Byte) :
    StepsCommute (State.withFrame m0 m1) (busWrite bytes) := fun s => by
  have hparams : (s.withFrame m0 m1).params = s.params := rfl
  simp only [busWrite, oracleAnswer_withFrame, hparams, recordTransaction_withFrame, errorEntry_withFrame]
  cases oracleAnswer (.write s.params.busAddr bytes) s with
  | ok d => rfl
  | err e => rfl
  | never => rfl

theorem busWriteRead_commutes_withFrame (bytes : List Byte) :
    StepsCommute (State.withFrame m0 m1) (busWriteRead bytes) := fun s => by
  have hparams : (s.withFrame m0 m1).params = s.params := rfl
  simp only [busWriteRead, oracleAnswer_withFrame, hparams, recordTransaction_withFrame, errorEntry_withFrame]
  cases oracleAnswer (.writeRead s.params.busAddr bytes Config.readLen) s with
  | ok d => rfl
  | err e => rfl
  | never => rfl

theorem ensurePage_commutes_withFrame (p : Page) : StepsCommute (State.withFrame m0 m1) (ensurePage p) := fun s => by
  have hcache : (s.withFrame m0 m1).cache = s.cache := rfl
  by_cases hc : s.cache = .page p
  · simp only [ensurePage, hcache, if_pos hc, Progress.mapState]
  · simp only [ensurePage, hcache, if_neg hc]
    exact ((busWrite_commutes_withFrame m0 m1 unlockBytes).andThen fun _ =>
      busWrite_commutes_withFrame m0 m1 (pageSelectBytes p)).andThen (fun _ _ => rfl) s

theorem writeOnPage_commutes_withFrame (p : Page) (bytes : List Byte) :
    StepsCommute (State.withFrame m0 m1) (writeOnPage p bytes) :=
  (ensurePage_commutes_withFrame m0 m1 p).andThen fun _ => busWrite_commutes_withFrame m0 m1 bytes

theorem readOnPage_commutes_withFrame (p : Page) (bytes : List Byte) :
    StepsCommute (State.withFrame m0 m1) (readOnPage p bytes) :=
  (ensurePage_commutes_withFrame m0 m1 p).andThen fun _ => busWriteRead_commutes_withFrame m0 m1 bytes

theorem runScript_commutes_withFrame (pairs : List (Page × List Byte)) :
    StepsCommute (State.withFrame m0 m1) (runScript pairs) := by
  induction pairs with
  | nil => exact fun _ => rfl
  | cons pair rest ih => exact (writeOnPage_commutes_withFrame m0 m1 pair.1 pair.2).andThen fun _ => ih

/-- A command behind the latch and session checks of R145 commutes when what follows them does. -/
theorem checked_commutes_withFrame {k : State → Host.Outcome State Fault Refusal}
    (hk : CommandCommutes (State.withFrame m0 m1) k) :
    CommandCommutes (State.withFrame m0 m1) fun s => unlessHalted s fun s => requireSession s k :=
  (withFrame_keepsLatch m0 m1).unlessHalted_commutes ((withFrame_keepsLatch m0 m1).requireSession_commutes (fun _ => rfl) hk)

theorem execSelectPage_commutes_withFrame (p : Nat) : CommandCommutes (State.withFrame m0 m1) (execSelectPage p) := by
  refine checked_commutes_withFrame m0 m1 fun s => ?_
  by_cases h : p < Config.npages
  · simpa only [dif_pos h] using
      (withFrame_keepsLatch m0 m1).respondOk_commutes (ensurePage_commutes_withFrame m0 m1 ⟨p, h⟩) s
  · simpa only [dif_neg h] using (withFrame_keepsLatch m0 m1).raiseFault_commutes .rangeFault s

theorem execReset_commutes_withFrame : CommandCommutes (State.withFrame m0 m1) execReset := by
  have hwrite : StepsCommute (State.withFrame m0 m1) fun s =>
      writeOnPage Config.cfgPage softwareResetBytes { s with cache := .unknown, sess := .noSession } := fun s =>
    writeOnPage_commutes_withFrame m0 m1 Config.cfgPage softwareResetBytes { s with cache := .unknown, sess := .noSession }
  have hf := withFrame_keepsLatch m0 m1
  exact hf.unlessHalted_commutes (hf.respondOk_commutes (hwrite.andThen fun _ _ => rfl))

/-- A script command, whichever of the parameters its script is. -/
theorem scriptCommand_commutes_withFrame (script : Params → Script) : CommandCommutes (State.withFrame m0 m1) fun s =>
    unlessHalted s fun s => requireSession s fun s => respondOk (runScript (scriptPairs (script s.params)) s) :=
  checked_commutes_withFrame m0 m1 ((withFrame_keepsLatch m0 m1).respondOk_commutes fun s =>
    runScript_commutes_withFrame m0 m1 (scriptPairs (script s.params)) s)

/-- A unit P command other than WRITE_LED_MATRIX does the same with any frame store. -/
theorem exec_unitP_commutes_withFrame {i : Instr} (hi : i.isUnitM = false) (hne : i ≠ .writeLedMatrix) :
    CommandCommutes (State.withFrame m0 m1) (exec i) := by
  have hf := withFrame_keepsLatch m0 m1
  have hwrite := writeOnPage_commutes_withFrame m0 m1
  have hread := readOnPage_commutes_withFrame m0 m1
  cases i with
  | setLed => cases hi
  | setPixel => cases hi
  | writeLedMatrix => exact absurd rfl hne
  | selectPage p => exact execSelectPage_commutes_withFrame m0 m1 p
  | reset => exact execReset_commutes_withFrame m0 m1
  | setGlobalVoltage v => exact checked_commutes_withFrame m0 m1 (hf.respondOk_commutes (hwrite _ _))
  | getGlobalVoltage => exact checked_commutes_withFrame m0 m1 (hf.respondData_commutes (hread _ _))
  | setSoftwareShutdownModeOff =>
    exact checked_commutes_withFrame m0 m1 (hf.respondOk_commutes ((hread _ _).andThen fun d =>
      busWrite_commutes_withFrame m0 m1 (writeConfigBytes (firstByte d))))
  | getSoftwareShutdownMode => exact checked_commutes_withFrame m0 m1 (hf.respondData_commutes (hread _ _))
  | setAllLedScales scale =>
    exact checked_commutes_withFrame m0 m1 (hf.respondOk_commutes ((hwrite _ _).andThen fun _ => hwrite _ _))
  | setLed0 => exact scriptCommand_commutes_withFrame m0 m1 Params.scriptSetLed0
  | setLed1 => exact scriptCommand_commutes_withFrame m0 m1 Params.scriptSetLed1
  | setLeds => exact scriptCommand_commutes_withFrame m0 m1 Params.scriptSetLeds

end

/-- A unit P command leaves both sequences of the frame store as they were. -/
theorem exec_unitP_keeps_frame {i : Instr} {s t : State} (hi : i.isUnitM = false) (h : exec i s = .next t) :
    t.s0 = s.s0 ∧ t.s1 = s.s1 := by
  cases exec_effect h with
  | fault k ht => subst ht; exact ⟨rfl, rfl⟩
  | stored _ hM => simp [hi] at hM
  | completed _ _ _ _ _ _ _ _ ht => subst ht; exact ⟨rfl, rfl⟩
  | aborted _ _ _ _ _ _ _ _ _ _ ht => subst ht; exact ⟨rfl, rfl⟩

/-- Settles O49: no effect of a unit P command touches the frame store, and every step of one but WRITE_LED_MATRIX commutes with
replacing it. -/
theorem unitPIgnoresTheFrameStore : Obligations.UnitPIgnoresTheFrameStore := by
  intro i s t m0 m1 hi h
  obtain ⟨hs0, hs1⟩ := exec_unitP_keeps_frame hi h
  exact ⟨hs0, hs1, fun hne => (exec_unitP_commutes_withFrame m0 m1 hi hne).next h⟩

end Sys2Proof.Machine
end

section
/-! Proofs of the obligations of 10_state: the frame store stays canonical (O53, O54, O35), the page cache and the session stay
backed by the trace (O55, O57), the constants and a halted block never change (O50, O11), every transaction is of the wire
vocabulary (O52), the row remap table and the reset values (O21, O9, O58), and item (3) of R24 is no invariant (O59). What a
sequence of transactions keeps is proved once for any property of the state, and then used for the cache and the vocabulary. -/

namespace Sys2Proof.Machine

/-! ### What every command leaves: the constants, and the trace so far -/

/-- No command changes a constant (R6, R15, R18, R127). -/
theorem exec_params {i : Instr} {s t : State} (h : exec i s = .next t) : t.params = s.params := by
  cases exec_effect h with
  | fault k ht => subst ht; rfl
  | stored u _ hu ht => rw [ht, hu]; rfl
  | completed _ _ _ _ _ _ _ _ ht => subst ht; rfl
  | aborted _ _ _ _ _ _ _ _ _ _ ht => subst ht; rfl

/-- A command adds entries at the end of the trace and takes none away (R8). -/
theorem exec_trace_extends {i : Instr} {s t : State} (h : exec i s = .next t) :
    ∃ added, t.trace = s.trace ++ added := by
  cases exec_effect h with
  | fault k ht => subst ht; exact ⟨[], by simp⟩
  | stored u _ hu ht => rw [ht, hu]; exact ⟨[], by simp⟩
  | completed _ added _ _ _ _ _ _ ht => subst ht; exact ⟨added, rfl⟩
  | aborted _ added last _ _ _ _ _ _ _ ht => subst ht; exact ⟨added ++ [last], rfl⟩

/-- Only RESET changes the session (R17). -/
theorem exec_keeps_sess {i : Instr} {s t : State} (hne : i ≠ .reset) (h : exec i s = .next t) : t.sess = s.sess := by
  cases exec_effect h with
  | fault k ht => subst ht; rfl
  | stored u _ hu ht => rw [ht, hu]; rfl
  | completed _ _ _ _ _ _ _ hx ht => subst ht; simp [hx, hne]
  | aborted _ _ _ _ _ _ _ _ _ hx ht => subst ht; simp [hx, hne]

/-- A step keeps what hardware reset, the fault latch and every command keep. -/
theorem step_keeps {Q : State → Prop} {s t : State} (hs : Q s) (hreset : Q (hardwareReset s))
    (hlatch : ∀ k, Q (({ s with halted := true, faultKind := k } : State).respond (.fault k)))
    (hexec : ∀ i t, exec i s = .next t → Q t) (h : step s = .next t) : Q t := by
  rcases step_cases h with ⟨-, rfl⟩ | ⟨_, -, rfl⟩ | ⟨_, _, i, -, -, hi⟩ | ⟨_, _, _, -, -, hw⟩
  · exact hs
  · exact hreset
  · exact hexec i t hi
  · obtain ⟨k, rfl⟩ := illegalWord_next hw
    exact hlatch k

/-- Settles O50: hardware reset carries the constants over, and no command or illegal word writes them. -/
theorem parametersNeverChange : Obligations.ParametersNeverChange := fun s _ h =>
  step_keeps (Q := fun t => t.params = s.params) rfl rfl (fun _ => rfl) (fun _ _ => exec_params) h

/-! ### The frame store stays canonical (R12 to R14) -/

/-- A channel's position is a data position of its sequence: never the command byte's (R14, R31). -/
theorem loc_dataPosition (k : Channel) : 0 < (loc k).2 ∧ (loc k).2 < (loc k).1.len := by
  have hk : k.val < Config.nchan := k.isLt
  unfold loc
  split
  · simp only [Sequence.len, Config.seq0Len, Config.split] at *
    omega
  · simp only [Sequence.len, Config.seq1Len, Config.split, Config.nchan] at *
    omega

theorem frameOk_congr {s t : State} (h0 : t.s0 = s.s0) (h1 : t.s1 = s.s1) (h : s.frameOk) : t.frameOk := by
  simpa only [State.frameOk, h0, h1] using h

/-- A store at a data position keeps the canonical form. -/
theorem storeByte_frameOk {s : State} {q : Sequence} {a : Nat} (v : Byte) (ha : 0 < a) (hlen : a < q.len)
    (h : s.frameOk) : (s.storeByte q a v).frameOk := by
  obtain ⟨hwf0, hwf1, hdata0, hdata1⟩ := h
  cases q with
  | s0 => exact ⟨write_wf a v hwf0, hwf1, write_dataOnly v hdata0 ha hlen, hdata1⟩
  | s1 => exact ⟨hwf0, write_wf a v hwf1, hdata0, write_dataOnly v hdata1 ha hlen⟩

theorem memWrite_frameOk {s : State} (k : Channel) (v : Byte) (h : s.frameOk) : (memWrite k v s).frameOk :=
  storeByte_frameOk v (loc_dataPosition k).1 (loc_dataPosition k).2 h

theorem writePixel_frameOk {s : State} (x : Fin Config.gridW) (y : Fin Config.gridH) (r g b : Byte) (h : s.frameOk) :
    (writePixel x y r g b s).frameOk :=
  memWrite_frameOk _ _ (memWrite_frameOk _ _ (memWrite_frameOk _ _ h))

/-- A command that stores when its operands are in range, and faults otherwise, keeps the canonical form if the store does. -/
theorem rangeChecked_frameOk {c : Prop} [Decidable c] {store : c → State → State} {s t : State} (hs : s.frameOk)
    (hstore : ∀ hc, (store hc s).frameOk)
    (h : (unlessHalted s fun s => if hc : c then .next ((store hc s).respond .ok) else raiseFault .rangeFault s) = .next t) :
    t.frameOk := by
  rcases unlessHalted_next h with ⟨-, rfl⟩ | ⟨-, h⟩
  · exact hs
  · split at h
    · rename_i hc
      cases h
      exact hstore hc
    · rw [raiseFault_next h]
      exact hs

/-- Every command keeps the frame store canonical: unit M stores at data positions, unit P does not store. -/
theorem exec_frameOk {i : Instr} {s t : State} (hs : s.frameOk) (h : exec i s = .next t) : t.frameOk := by
  cases hi : i.isUnitM with
  | false =>
    obtain ⟨h0, h1⟩ := exec_unitP_keeps_frame hi h
    exact frameOk_congr h0 h1 hs
  | true =>
    cases i with
    | setLed idx val =>
      exact rangeChecked_frameOk (store := fun hc => memWrite ⟨idx, hc⟩ val) hs (fun _ => memWrite_frameOk _ _ hs) h
    | setPixel x y r g b =>
      exact rangeChecked_frameOk (store := fun hc => writePixel ⟨x, hc.1⟩ ⟨y, hc.2⟩ r g b) hs
        (fun _ => writePixel_frameOk _ _ _ _ _ hs) h
    | _ => cases hi

/-- Settles O53: hardware reset empties both sequences, and every command keeps them canonical. -/
theorem stepKeepsTheFrameStoreCanonical : Obligations.StepKeepsTheFrameStoreCanonical := fun _ _ hs h =>
  step_keeps hs ⟨rfl, rfl, rfl, rfl⟩ (fun _ => hs) (fun _ _ => exec_frameOk hs) h

/-- The command byte of either sequence reads 0 (R14). -/
theorem byteAt_commandByte {s : State} (h : s.frameOk) (q : Sequence) : s.byteAt q 0 = 0 := by
  obtain ⟨-, -, hdata0, hdata1⟩ := h
  cases q with
  | s0 => exact read_commandByte hdata0
  | s1 => exact read_commandByte hdata1

/-- Settles O54: the command byte is no data position, in a canonical state and after a step from it. -/
theorem commandBytesStayZero : Obligations.CommandBytesStayZero :=
  ⟨fun _ q hs => byteAt_commandByte hs q,
   fun s t q hs h => byteAt_commandByte (stepKeepsTheFrameStoreCanonical s t hs h) q⟩

/-! ### The sequences as payloads (R122) -/

theorem sequenceBytes_length (s : State) (q : Sequence) : (s.sequenceBytes q).length = q.len := by
  simp [State.sequenceBytes]

theorem sequenceBytes_getElem? (s : State) {q : Sequence} {a : Nat} (h : a < q.len) :
    (s.sequenceBytes q)[a]? = some (s.byteAt q a) := by
  simp [State.sequenceBytes, List.getElem?_range h]

/-- The first byte of either payload is the command byte, 0 (R14, R80). -/
theorem sequenceBytes_head? {s : State} (h : s.frameOk) (q : Sequence) : (s.sequenceBytes q).head? = some 0 := by
  have hlen : 0 < q.len := by cases q <;> decide
  rw [List.head?_eq_getElem?, sequenceBytes_getElem? s hlen, byteAt_commandByte h]

/-- Settles O35: a payload lists its sequence's bytes from position 0, the command byte's, on. -/
theorem framePayloadsAreTheSequences : Obligations.FramePayloadsAreTheSequences := fun s hs =>
  ⟨sequenceBytes_length s .s0, sequenceBytes_length s .s1, fun _ => sequenceBytes_getElem? s (q := .s0),
   fun _ => sequenceBytes_getElem? s (q := .s1), sequenceBytes_head? hs .s0, sequenceBytes_head? hs .s1⟩

/-! ### What a command sends, beside unlocks and page selects (R59) -/

/-- The script a command runs (R124 to R126). -/
def scriptOf (c : Params) : Instr → Option Script
  | .setLed0 => some c.scriptSetLed0
  | .setLed1 => some c.scriptSetLed1
  | .setLeds => some c.scriptSetLeds
  | _        => none

/-- The byte lists that a command started in `s` writes, beside unlocks and page selects. -/
inductive DataWrite (s : State) : Instr → List Byte → Prop where
  | softwareReset : DataWrite s .reset softwareResetBytes
  | globalCurrent (v : Byte) : DataWrite s (.setGlobalVoltage v) (setGlobalCurrentBytes v)
  | config (d : Byte) : DataWrite s .setSoftwareShutdownModeOff (writeConfigBytes d)
  | scales0 (scale : Byte) : DataWrite s (.setAllLedScales scale) (scaleSeq0 scale)
  | scales1 (scale : Byte) : DataWrite s (.setAllLedScales scale) (scaleSeq1 scale)
  | frame (q : Sequence) : DataWrite s .writeLedMatrix (s.sequenceBytes q)
  | script {i : Instr} {k : Script} {pair : Page × List Byte} (hk : scriptOf s.params i = some k)
      (hpair : pair ∈ scriptPairs k) : DataWrite s i pair.2

/-- The registers a command reads. -/
inductive DataRead : Instr → Byte → Prop where
  | globalCurrent : DataRead .getGlobalVoltage Config.gccReg
  | config : DataRead .getSoftwareShutdownMode Config.cfgReg
  | configFirst : DataRead .setSoftwareShutdownModeOff Config.cfgReg

/-! ### What a sequence of transactions keeps -/

/-- The state that a sequence of steps has got to has the property. -/
def Progress.all {α : Type} (Q : State → Prop) : Progress α → Prop
  | .done _ s    => Q s
  | .aborted _ s => Q s
  | .silent      => True

/-- A sequence of steps keeps a property of the state. -/
def StepsKeep {α : Type} (Q : State → Prop) (k : State → Progress α) : Prop := ∀ s, Q s → (k s).all Q

/-- The property looks at the trace, the constants and the cache at most, and an Unknown cache does not break it. -/
def WireProperty (Q : State → Prop) : Prop :=
  ∀ s t : State, t.trace = s.trace → t.params = s.params → (t.cache = s.cache ∨ t.cache = .unknown) → Q s → Q t

section
variable {Q : State → Prop}

theorem Progress.all_andThen {α β : Type} {p : Progress α} {k : α → State → Progress β} (hp : p.all Q)
    (hk : ∀ a s, p = .done a s → Q s → (k a s).all Q) : (p.andThen k).all Q := by
  cases p with
  | done a s => exact hk a s rfl hp
  | aborted e s => exact hp
  | silent => trivial

theorem writeOnPage_keeps {p : Page} {bytes : List Byte} (hselect : StepsKeep Q (ensurePage p))
    (hwrite : StepsKeep Q (busWrite bytes)) : StepsKeep Q (writeOnPage p bytes) := fun s hs =>
  Progress.all_andThen (hselect s hs) fun _ s' _ hs' => hwrite s' hs'

theorem readOnPage_keeps {p : Page} {bytes : List Byte} (hselect : StepsKeep Q (ensurePage p))
    (hread : StepsKeep Q (busWriteRead bytes)) : StepsKeep Q (readOnPage p bytes) := fun s hs =>
  Progress.all_andThen (hselect s hs) fun _ s' _ hs' => hread s' hs'

theorem runScript_keeps {pairs : List (Page × List Byte)} (hselect : ∀ p, StepsKeep Q (ensurePage p))
    (hwrite : ∀ pair ∈ pairs, StepsKeep Q (busWrite pair.2)) : StepsKeep Q (runScript pairs) := by
  induction pairs with
  | nil => exact fun _ hs => hs
  | cons pair rest ih =>
    intro s hs
    obtain ⟨hpair, hrest⟩ := List.forall_mem_cons.mp hwrite
    exact Progress.all_andThen (writeOnPage_keeps (hselect pair.1) hpair s hs) fun _ s' _ hs' => ih hrest s' hs'

theorem respondOk_keeps (hQ : WireProperty Q) {p : Progress Unit} {t : State} (hp : p.all Q)
    (h : respondOk p = .next t) : Q t := by
  rcases respondOk_next h with ⟨_, s, rfl, rfl⟩ | ⟨_, s, rfl, rfl⟩ <;> exact hQ s _ rfl rfl (.inl rfl) hp

theorem respondData_keeps (hQ : WireProperty Q) {p : Progress ReadData} {t : State} (hp : p.all Q)
    (h : respondData p = .next t) : Q t := by
  rcases respondData_next h with ⟨_, s, rfl, rfl⟩ | ⟨_, s, rfl, rfl⟩ <;> exact hQ s _ rfl rfl (.inl rfl) hp

/-- The checks of R145: a command turned away keeps the property. -/
theorem checked_keeps (hQ : WireProperty Q) {k : State → Host.Outcome State Fault Refusal} {s t : State} (hs : Q s)
    (hk : k s = .next t → Q t) (h : (unlessHalted s fun s => requireSession s k) = .next t) : Q t := by
  rcases unlessHalted_next h with ⟨-, rfl⟩ | ⟨-, h⟩
  · exact hQ s _ rfl rfl (.inl rfl) hs
  · rcases requireSession_next h with ⟨-, h⟩ | ⟨-, h⟩
    · rw [raiseFault_next h]; exact hQ s _ rfl rfl (.inl rfl) hs
    · exact hk h

/-- A unit M command keeps every property of the wire (R79). -/
theorem exec_unitM_keeps (hQ : WireProperty Q) {i : Instr} {s t : State} (hi : i.isUnitM = true) (hs : Q s)
    (h : exec i s = .next t) : Q t := by
  obtain ⟨hcache, -, htrace, -, -⟩ := exec_unitM_keeps_unitP hi h
  exact hQ s t htrace (exec_params h) (.inl hcache) hs

/-- A write on a page leaves both sequences of the frame store. -/
theorem writeOnPage_done_sequenceBytes {p : Page} {bytes : List Byte} {s s' : State} {u : Unit}
    (h : writeOnPage p bytes s = .done u s') (q : Sequence) : s'.sequenceBytes q = s.sequenceBytes q := by
  have hsound := writeOnPage_sound p bytes s
  rw [h] at hsound
  obtain ⟨added, hafter, -⟩ := hsound
  rw [hafter]
  exact sequenceBytes_congr rfl rfl q

/-- A command keeps a property of the wire that the page select keeps and that the command's own writes and reads keep. -/
theorem exec_keeps (hQ : WireProperty Q) {i : Instr} {s t : State} (hselect : ∀ p, StepsKeep Q (ensurePage p))
    (hwrite : ∀ bytes, DataWrite s i bytes → StepsKeep Q (busWrite bytes))
    (hread : ∀ reg, DataRead i reg → StepsKeep Q (busWriteRead [reg])) (hs : Q s) (h : exec i s = .next t) : Q t := by
  have write {p : Page} {bytes : List Byte} (hb : DataWrite s i bytes) : StepsKeep Q (writeOnPage p bytes) :=
    writeOnPage_keeps (hselect p) (hwrite bytes hb)
  have read {p : Page} {reg : Byte} (hr : DataRead i reg) : StepsKeep Q (readOnPage p [reg]) :=
    readOnPage_keeps (hselect p) (hread reg hr)
  have script {k : Script} (hk : scriptOf s.params i = some k) : (runScript (scriptPairs k) s).all Q :=
    runScript_keeps hselect (fun _ hpair => hwrite _ (.script hk hpair)) s hs
  cases i with
  | setLed => exact exec_unitM_keeps hQ rfl hs h
  | setPixel => exact exec_unitM_keeps hQ rfl hs h
  | selectPage p =>
    refine checked_keeps hQ hs (fun h => ?_) h
    split at h
    · exact respondOk_keeps hQ (hselect _ s hs) h
    · rw [raiseFault_next h]; exact hQ s _ rfl rfl (.inl rfl) hs
  | reset =>
    simp only [exec, execReset] at h
    rcases unlessHalted_next h with ⟨-, rfl⟩ | ⟨-, h⟩
    · exact hQ s _ rfl rfl (.inl rfl) hs
    · have hstart : Q { s with cache := .unknown, sess := .noSession } := hQ s _ rfl rfl (.inr rfl) hs
      refine respondOk_keeps hQ (Progress.all_andThen (write .softwareReset _ hstart) ?_) h
      exact fun _ s' _ hs' => hQ s' { s' with sess := .active } rfl rfl (.inl rfl) hs'
  | setGlobalVoltage v => exact checked_keeps hQ hs (respondOk_keeps hQ (write (.globalCurrent v) s hs)) h
  | getGlobalVoltage => exact checked_keeps hQ hs (respondData_keeps hQ (read .globalCurrent s hs)) h
  | setSoftwareShutdownModeOff =>
    exact checked_keeps hQ hs (respondOk_keeps hQ (Progress.all_andThen (read .configFirst s hs) fun _ s' _ hs' =>
      hwrite _ (.config _) s' hs')) h
  | getSoftwareShutdownMode => exact checked_keeps hQ hs (respondData_keeps hQ (read .config s hs)) h
  | setAllLedScales scale =>
    exact checked_keeps hQ hs (respondOk_keeps hQ (Progress.all_andThen (write (.scales0 scale) s hs) fun _ s' _ hs' =>
      write (.scales1 scale) s' hs')) h
  | writeLedMatrix =>
    refine checked_keeps hQ hs (respondOk_keeps hQ (Progress.all_andThen (write (.frame .s0) s hs) ?_)) h
    intro _ s' hdone hs'
    rw [writeOnPage_done_sequenceBytes hdone]
    exact write (.frame .s1) s' hs'
  | setLed0 => exact checked_keeps hQ hs (respondOk_keeps hQ (script rfl)) h
  | setLed1 => exact checked_keeps hQ hs (respondOk_keeps hQ (script rfl)) h
  | setLeds => exact checked_keeps hQ hs (respondOk_keeps hQ (script rfl)) h

end

/-! ### The page cache is backed by the trace (R22, R45, R97) -/

theorem okWrite_congr {s t : State} (h : t.params = s.params) (bytes : List Byte) : okWrite t bytes = okWrite s bytes := by
  simp only [okWrite, h]

/-- A write is a page select exactly when its first byte is the page-select register's address. -/
theorem isPageSelect_write (addr : BitVec 7) (bytes : List Byte) (o : BusOutcome) :
    TraceEntry.isPageSelect ⟨.write addr bytes, o⟩ = decide (bytes.head? = some 0xFD) := by
  cases bytes with
  | nil => rfl
  | cons reg rest => simp [TraceEntry.isPageSelect]

/-- The entry is no page select that succeeded: the chip's page is the same after it. -/
def KeepsPage (t : TraceEntry) : Prop := t.isPageSelect = true → t.outcome.isErr = true

/-- More entries keep the cache backed when none of them selects a page and, under Invalidate, none is an error. -/
theorem State.cacheBacked.extend {s t : State} {added : List TraceEntry} (h : s.cacheBacked)
    (htrace : t.trace = s.trace ++ added) (hparams : t.params = s.params) (hcache : t.cache = s.cache ∨ t.cache = .unknown)
    (hpage : ∀ x ∈ added, KeepsPage x)
    (hok : t.cache = s.cache → s.params.cacheOnError = .invalidate → ∀ x ∈ added, x.outcome.isErr = false) :
    t.cacheBacked := by
  intro p hp
  rcases hcache with hcache | hcache
  · obtain ⟨before, after, heq, hselects, herrors⟩ := h p (hcache ▸ hp)
    refine ⟨before, after ++ added, ?_, ?_, ?_⟩
    · rw [htrace, heq, okWrite_congr hparams, okWrite_congr hparams, List.append_assoc]
    · exact List.forall_mem_append.mpr ⟨hselects, hpage⟩
    · rw [hparams]
      exact fun hpolicy => List.forall_mem_append.mpr ⟨herrors hpolicy, hok hcache hpolicy⟩
  · rw [hcache] at hp; cases hp

theorem cacheBacked_wireProperty : WireProperty State.cacheBacked := fun _ _ htrace hparams hcache h =>
  h.extend (added := []) (by simpa using htrace) hparams hcache (by simp) (by simp)

/-- Transactions that succeeded, none a page select, keep the cache backed. -/
theorem cacheBacked_advance {s : State} {added : List TraceEntry} (h : s.cacheBacked) (hpage : ∀ x ∈ added, KeepsPage x)
    (hok : ∀ x ∈ added, x.outcome.isErr = false) : (s.advance added).cacheBacked :=
  h.extend rfl rfl (.inl rfl) hpage fun _ _ => hok

/-- The error entry keeps the cache backed: under Invalidate it forgets the page, under Keep errors do not matter (R143). -/
theorem cacheBacked_errorEntry {s : State} {added : List TraceEntry} (h : s.cacheBacked)
    (hpage : ∀ x ∈ added, KeepsPage x) : (errorEntry (s.advance added)).cacheBacked := by
  cases hpolicy : s.params.cacheOnError with
  | invalidate =>
    have hcache : (errorEntry (s.advance added)).cache = .unknown := by simp [errorEntry_cache, hpolicy]
    intro p hp
    rw [hcache] at hp
    cases hp
  | keep =>
    exact h.extend (by simp) (by simp) (.inl (by simp [errorEntry_cache, hpolicy])) hpage (by simp [hpolicy])

/-- After an unlock and a select that succeeded the cache may hold that page. -/
theorem cacheBacked_select (s : State) (p : Page) :
    ({ s.advance [okWrite s unlockBytes, okWrite s (pageSelectBytes p)] with cache := .page p } : State).cacheBacked := by
  rintro q ⟨⟩
  exact ⟨s.trace, [], by simp [okWrite, unlockBytes, pageSelectBytes], by simp, by simp⟩

theorem okWrite_keepsPage {bytes : List Byte} (s : State) (h : bytes.head? ≠ some 0xFD) : KeepsPage (okWrite s bytes) :=
  fun hselect => absurd (of_decide_eq_true ((isPageSelect_write _ _ _).symm.trans hselect)) h

theorem errWrite_keepsPage (s : State) (bytes : List Byte) (e : TransportError) : KeepsPage (errWrite s bytes e) :=
  fun _ => rfl

theorem busWrite_keeps_cacheBacked {bytes : List Byte} (hb : bytes.head? ≠ some 0xFD) :
    StepsKeep State.cacheBacked (busWrite bytes) := by
  intro s hs
  rcases busWrite_cases bytes s with h | ⟨e, h⟩ | h <;> rw [h]
  · exact cacheBacked_advance hs (by simpa using okWrite_keepsPage s hb) (by simp [okWrite, BusOutcome.isErr])
  · exact cacheBacked_errorEntry hs (by simpa using errWrite_keepsPage s bytes e)
  · trivial

theorem busWriteRead_keeps_cacheBacked (reg : Byte) : StepsKeep State.cacheBacked (busWriteRead [reg]) := by
  intro s hs
  rcases busWriteRead_cases reg s with ⟨d, h⟩ | ⟨e, h⟩ | h <;> rw [h]
  · exact cacheBacked_advance hs (by simp [KeepsPage, okRead, TraceEntry.isPageSelect])
      (by simp [okRead, BusOutcome.isErr])
  · exact cacheBacked_errorEntry hs (by simp [KeepsPage, errRead, TraceEntry.isPageSelect])
  · trivial

theorem ensurePage_keeps_cacheBacked (p : Page) : StepsKeep State.cacheBacked (ensurePage p) := by
  intro s hs
  have hunlock : KeepsPage (okWrite s unlockBytes) := okWrite_keepsPage s (by decide)
  rcases ensurePage_cases p s with ⟨-, h⟩ | ⟨-, h | ⟨e, h⟩ | ⟨e, h⟩ | h⟩ <;> rw [h]
  · exact hs
  · exact cacheBacked_select s p
  · exact cacheBacked_errorEntry hs (by simpa using errWrite_keepsPage s unlockBytes e)
  · exact cacheBacked_errorEntry hs (by simpa using ⟨hunlock, errWrite_keepsPage s (pageSelectBytes p) e⟩)
  · trivial

/-- The bytes of a script's pairs are those of its payloads (R127). -/
theorem mem_scriptPairs {k : Script} {pair : Page × List Byte} (h : pair ∈ scriptPairs k) :
    ∃ b ∈ k.first :: (k.page1 ++ k.page2 ++ k.page3), pair.2 = Payload.bytes b := by
  simp only [scriptPairs, List.cons_append, List.mem_cons, List.mem_append, List.mem_map] at h ⊢
  rcases h with rfl | ((⟨b, hb, rfl⟩ | ⟨b, hb, rfl⟩) | ⟨b, hb, rfl⟩)
  · exact ⟨k.first, .inl rfl, rfl⟩
  · exact ⟨b, .inr (.inl (.inl hb)), rfl⟩
  · exact ⟨b, .inr (.inl (.inr hb)), rfl⟩
  · exact ⟨b, .inr (.inr hb), rfl⟩

theorem scriptOf_mem {c : Params} {i : Instr} {k : Script} (h : scriptOf c i = some k) :
    k ∈ [c.scriptSetLed0, c.scriptSetLed1, c.scriptSetLeds] := by
  unfold scriptOf at h
  split at h <;> simp_all

/-- No data write is a page select: registers are not 0xFD, payloads of the frame store begin with the command byte. -/
theorem DataWrite.head?_ne {s : State} {i : Instr} {bytes : List Byte} (hplain : s.params.scriptsPlain) (hframe : s.frameOk)
    (h : DataWrite s i bytes) : bytes.head? ≠ some 0xFD := by
  cases h with
  | softwareReset => decide
  | globalCurrent v => simp [setGlobalCurrentBytes]
  | config d => simp [writeConfigBytes]
  | scales0 scale => simp [scaleSeq0]
  | scales1 scale => simp [scaleSeq1]
  | frame q => rw [sequenceBytes_head? hframe]; decide
  | script hk hpair =>
    obtain ⟨b, hb, heq⟩ := mem_scriptPairs hpair
    have hhead := hplain _ (scriptOf_mem hk) b hb
    simpa [heq, Payload.bytes] using hhead

/-- Settles O55: hardware reset forgets the page, a select that succeeded backs it, a failed one and every data transaction leave
the page backed. -/
theorem stepKeepsTheCacheBackedByTheTrace : Obligations.StepKeepsTheCacheBackedByTheTrace := by
  intro s t hplain hframe hs h
  refine step_keeps hs (fun p hp => by cases hp) (fun k => cacheBacked_wireProperty s _ rfl rfl (.inl rfl) hs) ?_ h
  intro i t
  exact exec_keeps cacheBacked_wireProperty ensurePage_keeps_cacheBacked
    (fun _ hb => busWrite_keeps_cacheBacked (hb.head?_ne hplain hframe))
    (fun reg _ => busWriteRead_keeps_cacheBacked reg) hs

/-! ### A session is backed by a RESET (R17, R95) -/

/-- More entries keep a session backed. -/
theorem State.sessionBacked.extend {s t : State} {added : List TraceEntry} (h : s.sessionBacked) (hsess : t.sess = s.sess)
    (hparams : t.params = s.params) (htrace : t.trace = s.trace ++ added) : t.sessionBacked := by
  intro hactive
  obtain ⟨before, after, heq⟩ := h (hsess ▸ hactive)
  refine ⟨before, after ++ added, ?_⟩
  simp only [htrace, heq, okWrite_congr hparams, List.append_assoc]

/-- A write on a page that is done: the entries of R93 and the write, and the cache is the page. -/
theorem writeOnPage_done {p : Page} {bytes : List Byte} {s s' : State} {u : Unit}
    (h : writeOnPage p bytes s = .done u s') :
    s' = { s.advance (selectEntries s p ++ [okWrite s bytes]) with cache := .page p } := by
  obtain ⟨_, s1, hselect, hwrite⟩ := andThen_eq_done h
  rw [busWrite_done hwrite, ensurePage_done hselect, advance_updateCache, advance_append]
  rfl

/-- What RESET can have done to the session: turned away, failed without a session, or the three writes done (R95). -/
theorem execReset_session {s t : State} (h : exec .reset s = .next t) :
    (t.sess = s.sess ∧ t.trace = s.trace) ∨ t.sess = .noSession ∨
    t.trace = s.trace ++ [okWrite s [0xFE, 0xC5], okWrite s [0xFD, 0x04], okWrite s [0x3F, 0xAE]] := by
  simp only [exec, execReset] at h
  rcases unlessHalted_next h with ⟨-, rfl⟩ | ⟨-, hsteps⟩
  · exact .inl ⟨rfl, rfl⟩
  · rcases respondOk_next hsteps with ⟨_, s', hdone, rfl⟩ | ⟨e, s', haborted, rfl⟩
    · obtain ⟨_, s1, hwrite, hsess⟩ := andThen_eq_done hdone
      cases hsess
      rw [writeOnPage_done hwrite]
      exact .inr (.inr rfl)
    · rcases andThen_eq_aborted haborted with hwrite | ⟨_, s1, -, hsess⟩
      · have hsound := writeOnPage_sound Config.cfgPage softwareResetBytes { s with cache := .unknown, sess := .noSession }
        rw [hwrite] at hsound
        obtain ⟨_, _, hafter, -⟩ := hsound
        rw [hafter]
        exact .inr (.inl rfl)
      · cases hsess

/-- Every command keeps a session backed: RESET by its own three writes, the others by the entries before theirs. -/
theorem exec_sessionBacked {i : Instr} {s t : State} (hs : s.sessionBacked) (h : exec i s = .next t) : t.sessionBacked := by
  have hparams := exec_params h
  by_cases hreset : i = .reset
  · subst hreset
    rcases execReset_session h with ⟨hsess, htrace⟩ | hnone | htrace
    · exact hs.extend (added := []) hsess hparams (by simpa using htrace)
    · intro hactive
      rw [hnone] at hactive
      cases hactive
    · exact fun _ => ⟨s.trace, [], by simp only [htrace, okWrite_congr hparams, List.append_nil]⟩
  · obtain ⟨added, htrace⟩ := exec_trace_extends h
    exact hs.extend (exec_keeps_sess hreset h) hparams htrace

/-- Settles O57: only RESET begins a session, after its three writes, and the trace keeps what it holds until hardware reset ends
the session. -/
theorem stepKeepsTheSessionBackedByAReset : Obligations.StepKeepsTheSessionBackedByAReset := by
  intro s t hs h
  refine step_keeps hs (fun hactive => by cases hactive) (fun k => ?_) (fun _ _ => exec_sessionBacked hs) h
  exact hs.extend (added := []) rfl rfl (by simp)

/-! ### Every transaction is of the wire vocabulary (R59) -/

/-- `t` is reached from `s` with the same constants, and every transaction issued on the way is one of `V`. -/
def Issued (V : Transaction → Prop) (s t : State) : Prop :=
  t.params = s.params ∧ ∃ added, t.trace = s.trace ++ added ∧ ∀ x ∈ added, V x.transaction

section
variable {V : Transaction → Prop} {s : State}

theorem Issued.refl (V : Transaction → Prop) (s : State) : Issued V s s := ⟨rfl, [], by simp, by simp⟩

theorem Issued.extend {t u : State} {l : List TraceEntry} (h : Issued V s t) (hparams : u.params = t.params)
    (htrace : u.trace = t.trace ++ l) (hl : ∀ x ∈ l, V x.transaction) : Issued V s u := by
  obtain ⟨hp, added, ht, hadded⟩ := h
  exact ⟨hparams.trans hp, added ++ l, by rw [htrace, ht, List.append_assoc], List.forall_mem_append.mpr ⟨hadded, hl⟩⟩

theorem issued_wireProperty : WireProperty (Issued V s) := fun _ _ htrace hparams _ h =>
  h.extend (l := []) hparams (by simpa using htrace) (by simp)

theorem busWrite_issues {bytes : List Byte} (hV : V (.write s.params.busAddr bytes)) :
    StepsKeep (Issued V s) (busWrite bytes) := by
  intro t ht
  rw [← ht.1] at hV
  rcases busWrite_cases bytes t with h | ⟨e, h⟩ | h <;> rw [h]
  · exact ht.extend (l := [okWrite t bytes]) rfl rfl (by simpa [okWrite] using hV)
  · exact ht.extend (l := [errWrite t bytes e]) (by simp) (by simp) (by simpa [errWrite] using hV)
  · trivial

theorem busWriteRead_issues {reg : Byte} (hV : V (.writeRead s.params.busAddr [reg] 1)) :
    StepsKeep (Issued V s) (busWriteRead [reg]) := by
  intro t ht
  rw [← ht.1] at hV
  rcases busWriteRead_cases reg t with ⟨d, h⟩ | ⟨e, h⟩ | h <;> rw [h]
  · exact ht.extend (l := [okRead t reg (firstByte d)]) rfl rfl (by simpa [okRead] using hV)
  · exact ht.extend (l := [errRead t reg e]) (by simp) (by simp) (by simpa [errRead] using hV)
  · trivial

theorem ensurePage_issues {p : Page} (hunlock : V (.write s.params.busAddr unlockBytes))
    (hselect : V (.write s.params.busAddr (pageSelectBytes p))) : StepsKeep (Issued V s) (ensurePage p) := by
  intro t ht
  unfold ensurePage
  split
  · exact ht
  · refine Progress.all_andThen (Progress.all_andThen (busWrite_issues hunlock t ht) fun _ t' _ ht' =>
      busWrite_issues hselect t' ht') fun _ t' _ ht' => ?_
    exact ht'.extend (l := []) rfl (by simp) (by simp)

end

/-- The data writes of a command are of its vocabulary. -/
theorem DataWrite.inVocabulary {s : State} {i : Instr} {bytes : List Byte} (h : DataWrite s i bytes) :
    wireVocabulary s i (.write s.params.busAddr bytes) := by
  cases h with
  | softwareReset => exact .inr (.inr (.inl ⟨rfl, rfl⟩))
  | globalCurrent v => exact .inr (.inr (.inr (.inl ⟨v, rfl, rfl⟩)))
  | config d => exact .inr (.inr (.inr (.inr (.inr (.inr (.inl ⟨rfl, d, rfl⟩))))))
  | scales0 scale => exact .inr (.inr (.inr (.inr (.inr (.inr (.inr (.inr (.inl ⟨scale, rfl, .inl rfl⟩))))))))
  | scales1 scale => exact .inr (.inr (.inr (.inr (.inr (.inr (.inr (.inr (.inl ⟨scale, rfl, .inr rfl⟩))))))))
  | frame q =>
    refine .inr (.inr (.inr (.inr (.inr (.inr (.inr (.inl ⟨rfl, ?_⟩)))))))
    cases q with
    | s0 => exact .inl rfl
    | s1 => exact .inr rfl
  | @script _ k pair hk hpair =>
    have hscript : (i = .setLed0 ∧ k = s.params.scriptSetLed0) ∨ (i = .setLed1 ∧ k = s.params.scriptSetLed1) ∨
        (i = .setLeds ∧ k = s.params.scriptSetLeds) := by
      unfold scriptOf at hk
      split at hk <;> simp_all
    exact .inr (.inr (.inr (.inr (.inr (.inr (.inr (.inr (.inr ⟨k, pair, hscript, hpair, rfl⟩))))))))

/-- The reads of a command are of its vocabulary. -/
theorem DataRead.inVocabulary (s : State) {i : Instr} {reg : Byte} (h : DataRead i reg) :
    wireVocabulary s i (.writeRead s.params.busAddr [reg] 1) := by
  cases h <;> simp [wireVocabulary]

/-- Settles O52: unlocks and page selects are every command's, and its other writes and reads are those of its row. -/
theorem everyTransactionIsOfTheWireVocabulary : Obligations.EveryTransactionIsOfTheWireVocabulary := by
  intro i s t h
  have hissued : Issued (wireVocabulary s i) s t :=
    exec_keeps issued_wireProperty (fun p => ensurePage_issues (.inl rfl) (.inr (.inl ⟨p, rfl⟩)))
      (fun _ hb => busWrite_issues hb.inVocabulary) (fun _ hr => busWriteRead_issues (hr.inVocabulary s))
      (Issued.refl _ s) h
  exact hissued.2

/-! ### A halted block (R148) -/

/-- A halted block answers any command word, legal or not, with the latched fault. -/
theorem step_of_halted {s : State} {w : CommandWord} {rest : List HostEvent} (hs : s.halted = true)
    (hport : s.port = .command w :: rest) : step s = .next (s.respond (.fault s.faultKind)) := by
  simp only [step, fetch, hport, List.head?_cons]
  cases decode w with
  | ok i => exact exec_of_halted i hs
  | error why => exact unlessHalted_of_halted _ hs

/-- Settles O11, by induction on the command words presented: the state after one of them is halted with the same kind. -/
theorem haltedRunChangesNothing : Obligations.HaltedRunChangesNothing := by
  intro s ws rest hs hport
  induction ws generalizing s with
  | nil =>
    have hrest : rest = s.port := by simpa using hport.symm
    simp [Host.Core.run, hrest]
  | cons w ws ih =>
    have hstep : core.step s = .next (s.respond (.fault s.faultKind)) := step_of_halted hs hport
    have hrun := ih (s.respond (.fault s.faultKind)) hs (by simp [hport])
    simp only [List.length_cons, Host.Core.run, hstep, hrun]
    simp [State.respond, List.replicate_succ]

/-! ### The row remap table (R169) -/

/-- A table of numbers below 9 lists no entry twice exactly when it is injective. -/
theorem nodup_ofFn_table {t : Vector Nat Config.gridH} (hlt : ∀ i : Fin Config.gridH, t[i] < Config.gridH) :
    (Vector.ofFn fun i : Fin Config.gridH => (⟨t[i], hlt i⟩ : Fin Config.gridH)).toList.Nodup ↔
      ∀ i j : Fin Config.gridH, t[i] = t[j] → i = j := by
  rw [Vector.toList_ofFn, List.nodup_ofFn]
  simp [Function.Injective]

/-- Settles O21: the two checks of `rowMapOfTable` are the two requirements. -/
theorem onlyPermutationsAreTakenAsRowMap : Obligations.OnlyPermutationsAreTakenAsRowMap := by
  intro t
  unfold rowMapOfTable
  by_cases hlt : ∀ i : Fin Config.gridH, t[i] < Config.gridH
  · have htaken := nodup_ofFn_table hlt
    simp only [dif_pos hlt]
    split
    next hnodup => exact iff_of_true rfl ⟨hlt, htaken.mp hnodup⟩
    next hrepeat => exact iff_of_false Bool.false_ne_true fun ⟨_, hinj⟩ => hrepeat (htaken.mpr hinj)
  · rw [dif_neg hlt]
    exact iff_of_false Bool.false_ne_true fun ⟨hbelow, _⟩ => hlt hbelow

/-! ### The state after reset (R23) -/

/-- Settles O9: no position is listed after reset, so each reads 0. -/
theorem resetStateHasTheSpecsValues : Obligations.ResetStateHasTheSpecsValues :=
  ⟨fun q _ => by cases q <;> rfl, rfl, rfl, rfl, rfl⟩

/-- Settles O58: after reset nothing is listed, cached or on the trace, and there is no session. -/
theorem resetMeetsTheInvariants : Obligations.ResetMeetsTheInvariants := by
  refine ⟨⟨rfl, rfl, rfl, rfl⟩, ?_, ?_, ?_⟩
  · rintro p ⟨⟩
  · intro before t after h
    simp [State.reset] at h
  · rintro ⟨⟩

/-! ### Item (3) of R24 is no invariant (log 13) -/

/-- RESET, SET_GLOBAL_VOLTAGE 0x80 and RESET again are presented after power-on; the transport fails at the second RESET. -/
def resetFailingLater : State :=
  { State.reset with
    port    := [.command 0x1100000000, .command 0x1200000080, .command 0x1100000000]
    answers := [.ok #v[0], .ok #v[0], .ok #v[0], .ok #v[0], .err ⟨0⟩] }

/-- That state after the first two commands: a session, and a write of SET_GLOBAL_VOLTAGE on the trace. -/
def beforeFailingReset : State :=
  { State.reset with
    cache     := .page 4
    sess      := .active
    trace     := [⟨.write 0x30 [0xFE, 0xC5], .ok⟩, ⟨.write 0x30 [0xFD, 0x04], .ok⟩, ⟨.write 0x30 [0x3F, 0xAE], .ok⟩,
                  ⟨.write 0x30 [0x01, 0x80], .ok⟩]
    port      := [.command 0x1100000000]
    responses := [.ok, .ok]
    answers   := [.err ⟨0⟩]
    asked     := 4 }

/-- The state is reached: the refutation starts from a run of the machine after power-on. -/
theorem run_resetFailingLater : core.run 2 resetFailingLater = .next beforeFailingReset := rfl

/-- The second RESET ends the session and leaves the write of SET_GLOBAL_VOLTAGE on the trace. -/
theorem step_beforeFailingReset : ∃ t, step beforeFailingReset = .next t ∧ t.sess = .noSession ∧ t.halted = false ∧
    t.params.busAddr = 0x30 ∧ ⟨.write 0x30 [0x01, 0x80], .ok⟩ ∈ t.trace :=
  ⟨_, rfl, rfl, rfl, rfl, by decide⟩

/-- Refutes O59: in a session the hypothesis asks nothing of the trace, and a RESET that fails then ends the session. -/
theorem not_noSessionMeansOnlyResetOnTheTrace : ¬ Obligations.NoSessionMeansOnlyResetOnTheTrace := by
  intro h
  obtain ⟨t, hstep, hsess, hhalted, haddr, hmem⟩ := step_beforeFailingReset
  have honly := h beforeFailingReset t (fun hnone => by cases hnone) hstep hsess hhalted _ hmem
  rw [haddr] at honly
  exact absurd honly (by decide)

end Sys2Proof.Machine
end

section
/-! Proofs of the obligations of 20_memory: channels are routed each to its own position (O15), pixels to channels of their own
(O20), SET_LED stores one byte (O22); a command whose transactions are answered completes (O39), and one whose first transaction
is never answered never responds (O40). The last two follow the sequences of transactions: O39 counts the answers each of them
can use up, O40 shows that each asks for the first. -/

namespace Sys2Proof.Machine

/-! ### Routing of a channel index (R31) -/

theorem loc_of_lt {k : Channel} (h : k.val < 180) : loc k = (.s0, k.val + 1) := if_pos h

theorem loc_of_ge {k : Channel} (h : 180 ≤ k.val) : loc k = (.s1, k.val - 180 + 1) := if_neg (Nat.not_lt.mpr h)

/-- The formula solved for the channel, in S0. -/
theorem loc_eq_s0_iff {k : Channel} {a : Nat} : loc k = (.s0, a) ↔ k.val < 180 ∧ a = k.val + 1 := by
  rcases Nat.lt_or_ge k.val 180 with hk | hk
  · simp [loc_of_lt hk, hk, eq_comm]
  · simp [loc_of_ge hk, Nat.not_lt.mpr hk]

/-- The formula solved for the channel, in S1. -/
theorem loc_eq_s1_iff {k : Channel} {a : Nat} : loc k = (.s1, a) ↔ 180 ≤ k.val ∧ k.val = a + 179 := by
  rcases Nat.lt_or_ge k.val 180 with hk | hk
  · simp [loc_of_lt hk, hk]
  · simp only [loc_of_ge hk, Prod.mk.injEq, true_and]
    omega

/-- Different channels have different positions. -/
theorem loc_injective : Function.Injective loc := by
  intro k k' h
  apply Fin.ext
  rcases Nat.lt_or_ge k'.val 180 with hk' | hk'
  · obtain ⟨-, ha⟩ := loc_eq_s0_iff.mp (h.trans (loc_of_lt hk'))
    omega
  · obtain ⟨-, ha⟩ := loc_eq_s1_iff.mp (h.trans (loc_of_ge hk'))
    omega

/-- The positions of S0 that a channel has: all but the command byte's. -/
theorem exists_loc_eq_s0 (a : Nat) : (∃ k, loc k = (.s0, a)) ↔ 1 ≤ a ∧ a ≤ 180 := by
  simp only [loc_eq_s0_iff]
  constructor
  · rintro ⟨k, hk, rfl⟩
    omega
  · rintro ⟨hlow, hhigh⟩
    have hchannel : a - 1 < 357 := by omega
    exact ⟨⟨a - 1, hchannel⟩, by simp only; omega⟩

/-- The positions of S1 that a channel has: all but the command byte's. -/
theorem exists_loc_eq_s1 (a : Nat) : (∃ k, loc k = (.s1, a)) ↔ 1 ≤ a ∧ a ≤ 177 := by
  simp only [loc_eq_s1_iff]
  constructor
  · rintro ⟨k, hk, ha⟩
    have hlt : k.val < 357 := k.isLt
    omega
  · rintro ⟨hlow, hhigh⟩
    have hchannel : a + 179 < 357 := by omega
    exact ⟨⟨a + 179, hchannel⟩, Nat.add_le_add_right hlow 179, rfl⟩

/-- Settles O15: the formula is `loc`'s own, and it can be solved for the channel in either sequence. -/
theorem locRoutesEveryChannelToItsOwnPosition : Obligations.LocRoutesEveryChannelToItsOwnPosition :=
  ⟨fun _ => rfl, fun _ _ h => loc_injective h, exists_loc_eq_s0, exists_loc_eq_s1⟩

/-! ### Pixels and their channels (R37, R70 to R76) -/

theorem slot_of_lt {x : Nat} (row : Nat) (h : x < 10) : slot x row = x + 10 * row := if_pos h

theorem slot_of_ge {x : Nat} (row : Nat) (h : 10 ≤ x) : slot x row = x + 80 + 3 * row := if_neg (Nat.not_lt.mpr h)

/-- The 13 × 9 grid has 117 slots: 90 in the first column block and 27 in the second. -/
theorem slot_lt {x row : Nat} (hx : x < 13) (hrow : row < 9) : slot x row < 117 := by
  rcases Nat.lt_or_ge x 10 with h | h
  · rw [slot_of_lt row h]; omega
  · rw [slot_of_ge row h]; omega

/-- Different pixels of the grid have different slots: the blocks do not meet, and in each the stride is the block's width. -/
theorem slot_injective {x x' row row' : Nat} (hx : x < 13) (hx' : x' < 13) (hrow : row < 9) (hrow' : row' < 9)
    (h : slot x row = slot x' row') : x = x' ∧ row = row' := by
  rcases Nat.lt_or_ge x 10 with hb | hb <;> rcases Nat.lt_or_ge x' 10 with hb' | hb'
  · rw [slot_of_lt row hb, slot_of_lt row' hb'] at h; omega
  · rw [slot_of_lt row hb, slot_of_ge row' hb'] at h; omega
  · rw [slot_of_ge row hb, slot_of_lt row' hb'] at h; omega
  · rw [slot_of_ge row hb, slot_of_ge row' hb'] at h; omega

/-- A row remap table takes different rows to different physical rows (R15). -/
theorem rowOf_injective (m : RowMap) : Function.Injective (rowOf m) := by
  intro y y' h
  have hget : m.entries.toList[y.val]'(by simp) = m.entries.toList[y'.val]'(by simp) := by simpa [rowOf] using h
  exact Fin.ext ((List.Nodup.getElem_inj_iff m.nodup).mp hget)

/-- A pixel's channel is three times its slot, and the colour position (R72, R75). -/
theorem pixelChannel_val (m : RowMap) (x : Fin 13) (y : Fin 9) (i : Fin 3) :
    (pixelChannel m x y i).val = 3 * slot x (rowOf m y) + i := rfl

theorem pixelChannel_lt (m : RowMap) (x : Fin 13) (y : Fin 9) (i : Fin 3) : (pixelChannel m x y i).val < 351 := by
  have hslot := slot_lt x.isLt (rowOf m y).isLt
  rw [pixelChannel_val]
  omega

theorem pixelChannel_injective {m : RowMap} {x x' : Fin 13} {y y' : Fin 9} {i i' : Fin 3}
    (h : pixelChannel m x y i = pixelChannel m x' y' i') : x = x' ∧ y = y' ∧ i = i' := by
  have hval : 3 * slot x (rowOf m y) + i = 3 * slot x' (rowOf m y') + i' := congrArg Fin.val h
  have hslot : slot x (rowOf m y) = slot x' (rowOf m y') := by omega
  obtain ⟨hx, hrow⟩ := slot_injective x.isLt x'.isLt (rowOf m y).isLt (rowOf m y').isLt hslot
  exact ⟨Fin.ext hx, rowOf_injective m (Fin.ext hrow), by omega⟩

/-- Settles O20: a channel determines slot and colour position, a slot column and physical row, and that row the logical one. -/
theorem pixelsNeverShareAChannel : Obligations.PixelsNeverShareAChannel := fun m x _ y _ i _ =>
  ⟨pixelChannel_injective, pixelChannel_lt m x y i⟩

/-! ### A byte of the frame store after a store (R31, R32) -/

@[simp] theorem byteAt_respond (s : State) (r : Response) (q : Sequence) (a : Nat) :
    (s.respond r).byteAt q a = s.byteAt q a := by cases q <;> rfl

/-- The sequences of a canonical frame store are canonical memories. -/
theorem State.frameOk.memory_wf {s : State} (h : s.frameOk) (q : Sequence) : (s.memory q).wf = true := by
  obtain ⟨hwf0, hwf1, -, -⟩ := h
  cases q with
  | s0 => exact hwf0
  | s1 => exact hwf1

theorem byteAt_storeByte_same {s : State} (q : Sequence) (a : Nat) (v : Byte) (h : s.frameOk) :
    (s.storeByte q a v).byteAt q a = v := by
  rw [State.byteAt, storeByte_memory_same, read_write_same a v (h.memory_wf q)]

theorem byteAt_storeByte_other (s : State) {q q' : Sequence} {a a' : Nat} (v : Byte) (h : (q', a') ≠ (q, a)) :
    (s.storeByte q a v).byteAt q' a' = s.byteAt q' a' := by
  by_cases hq : q' = q
  · subst hq
    have ha : a' ≠ a := fun ha => h (by rw [ha])
    rw [State.byteAt, storeByte_memory_same, read_write_other v ha, State.byteAt]
  · rw [State.byteAt, storeByte_memory_other s a v hq, State.byteAt]

/-- A channel reads what was last stored to it. -/
theorem byteAt_memWrite_same {s : State} (k : Channel) (v : Byte) (h : s.frameOk) :
    (memWrite k v s).byteAt (loc k).1 (loc k).2 = v := byteAt_storeByte_same _ _ v h

/-- A store to a channel leaves every position but the channel's. -/
theorem byteAt_memWrite_other (s : State) {k : Channel} {q : Sequence} {a : Nat} (v : Byte) (h : (q, a) ≠ loc k) :
    (memWrite k v s).byteAt q a = s.byteAt q a := byteAt_storeByte_other s v h

/-- SET_LED in range: the one store, and the response OK (R74). -/
theorem exec_setLed_of_lt {s : State} {idx : Nat} (val : Byte) (h : idx < 357) (hs : s.running) :
    exec (.setLed idx val) s = .next ((memWrite ⟨idx, h⟩ val s).respond .ok) := by
  simp only [exec, execSetLed, unlessHalted_of_running _ hs, dif_pos h]

/-- Settles O22: the command is one store to a canonical frame store. -/
theorem setLedStoresOneByte : Obligations.SetLedStoresOneByte := by
  intro s idx val h hs hframe
  refine ⟨_, exec_setLed_of_lt val h hs, ?_, fun q a hne => ?_, ?_⟩
  · rw [byteAt_respond, byteAt_memWrite_same ⟨idx, h⟩ val hframe]
  · rw [byteAt_respond, byteAt_memWrite_other s val hne]
  · exact congrArg (State.respond · .ok) (memWrite_onlyFrame ⟨idx, h⟩ val s)

/-! ### Every answered command completes (R46, R98) -/

theorem answersCome.mono {s : State} {n m : Nat} (h : answersCome s n) (hle : m ≤ n) : answersCome s m := by
  obtain ⟨hlen, hcome⟩ := h
  exact ⟨hle.trans hlen, fun hmem => hcome ((List.take_sublist_take_left hle).subset hmem)⟩

/-- When one more answer comes, the next settled answer is not `never`, and the others come after it is used up. -/
theorem answersCome_succ {s : State} {n : Nat} (h : answersCome s (n + 1)) :
    ∃ a l, s.answers = a :: l ∧ a ≠ .never ∧ n ≤ l.length ∧ .never ∉ l.take n := by
  obtain ⟨hlen, hcome⟩ := h
  cases hs : s.answers with
  | nil => simp [hs] at hlen
  | cons a l =>
    simp only [hs, List.take_succ_cons, List.mem_cons, not_or] at hcome
    obtain ⟨hne, hrest⟩ := hcome
    exact ⟨a, l, rfl, Ne.symm hne, by simpa [hs] using hlen, hrest⟩

/-- A sequence of steps has not stopped for want of an answer, and when it is done the next `n` answers still come. -/
def Progress.answered {α : Type} (n : Nat) : Progress α → Prop
  | .done _ s    => answersCome s n
  | .aborted _ _ => True
  | .silent      => False

/-- The steps use up at most `n` answers: they get all of them, and those after the `n` are left. -/
def AnsweredWithin {α : Type} (n : Nat) (k : State → Progress α) : Prop :=
  ∀ (m : Nat) (s : State), answersCome s (n + m) → (k s).answered m

theorem answeredWithin_busWrite (bytes : List Byte) : AnsweredWithin 1 (busWrite bytes) := by
  intro m s hs
  obtain ⟨a, l, hl, hne, hlen, hcome⟩ := answersCome_succ (Nat.add_comm 1 m ▸ hs)
  cases a with
  | ok d => rw [busWrite_of_ok bytes hl]; simpa [Progress.answered, answersCome, hl] using ⟨hlen, hcome⟩
  | err e => rw [busWrite_of_err bytes hl]; trivial
  | never => exact absurd rfl hne

theorem answeredWithin_busWriteRead (reg : Byte) : AnsweredWithin 1 (busWriteRead [reg]) := by
  intro m s hs
  obtain ⟨a, l, hl, hne, hlen, hcome⟩ := answersCome_succ (Nat.add_comm 1 m ▸ hs)
  cases a with
  | ok d => rw [busWriteRead_of_ok reg hl]; simpa [Progress.answered, answersCome, hl] using ⟨hlen, hcome⟩
  | err e => rw [busWriteRead_of_err reg hl]; trivial
  | never => exact absurd rfl hne

/-- Steps one after the other use up at most the answers of both. -/
theorem AnsweredWithin.andThen {α β : Type} {n m : Nat} {p : State → Progress α} {q : α → State → Progress β}
    (hp : AnsweredWithin n p) (hq : ∀ a, AnsweredWithin m (q a)) :
    AnsweredWithin (n + m) fun s => (p s).andThen q := by
  intro l s hs
  have hfirst := hp (m + l) s (Nat.add_assoc n m l ▸ hs)
  show ((p s).andThen q).answered l
  cases hps : p s with
  | done a s' =>
    rw [hps] at hfirst
    exact hq a l s' hfirst
  | aborted e s' => trivial
  | silent =>
    rw [hps] at hfirst
    exact hfirst.elim

/-- The page select sends two writes at most (R93). -/
theorem answeredWithin_ensurePage (p : Page) : AnsweredWithin 2 (ensurePage p) := by
  intro m s hs
  by_cases hc : s.cache = .page p
  · rw [ensurePage, if_pos hc]
    exact hs.mono (Nat.le_add_left m 2)
  · rw [ensurePage, if_neg hc]
    have hcache : AnsweredWithin 0 fun s => .done () { s with cache := .page p } :=
      fun l _ hl => Nat.zero_add l ▸ hl
    exact ((answeredWithin_busWrite unlockBytes).andThen fun _ => answeredWithin_busWrite (pageSelectBytes p)).andThen
      (fun _ => hcache) m s hs

theorem answeredWithin_writeOnPage (p : Page) (bytes : List Byte) : AnsweredWithin 3 (writeOnPage p bytes) :=
  (answeredWithin_ensurePage p).andThen fun _ => answeredWithin_busWrite bytes

theorem answeredWithin_readOnPage (p : Page) (reg : Byte) : AnsweredWithin 3 (readOnPage p [reg]) :=
  (answeredWithin_ensurePage p).andThen fun _ => answeredWithin_busWriteRead reg

/-- A script sends at most three writes for each of its pairs (R127). -/
theorem answeredWithin_runScript (pairs : List (Page × List Byte)) :
    AnsweredWithin (3 * pairs.length) (runScript pairs) := by
  induction pairs with
  | nil => exact fun m _ hs => Nat.zero_add m ▸ hs
  | cons pair rest ih =>
    rw [List.length_cons, Nat.mul_add_one, Nat.add_comm]
    exact (answeredWithin_writeOnPage pair.1 pair.2).andThen fun _ => ih

/-- The command answers a next state. -/
def Completes (o : Host.Outcome State Fault Refusal) : Prop := ∃ t, o = .next t

theorem respondOk_completes {n : Nat} {k : State → Progress Unit} {s : State} (hk : AnsweredWithin n k)
    (hs : answersCome s n) : Completes (respondOk (k s)) := by
  have hanswered := hk 0 s hs
  cases h : k s with
  | done u s' => exact ⟨_, respondOk_done u s'⟩
  | aborted e s' => exact ⟨_, respondOk_aborted e s'⟩
  | silent => rw [h] at hanswered; exact hanswered.elim

theorem respondData_completes {n : Nat} {k : State → Progress ReadData} {s : State} (hk : AnsweredWithin n k)
    (hs : answersCome s n) : Completes (respondData (k s)) := by
  have hanswered := hk 0 s hs
  cases h : k s with
  | done d s' => exact ⟨_, respondData_done d s'⟩
  | aborted e s' => exact ⟨_, respondData_aborted e s'⟩
  | silent => rw [h] at hanswered; exact hanswered.elim

section
variable {k : State → Host.Outcome State Fault Refusal} {s : State}

theorem raiseFault_completes (kind : FaultKind) (s : State) : Completes (raiseFault kind s) := ⟨_, rfl⟩

/-- The latch check answers itself or goes on. -/
theorem unlessHalted_completes (hk : Completes (k s)) : Completes (unlessHalted s k) := by
  cases hh : s.halted with
  | true => exact ⟨_, unlessHalted_of_halted k hh⟩
  | false => rwa [unlessHalted_of_running k hh]

/-- The latch check and the session check answer themselves or go on. -/
theorem checked_completes (hk : Completes (k s)) : Completes (unlessHalted s fun s => requireSession s k) := by
  refine unlessHalted_completes ?_
  cases hx : s.sess with
  | noSession => rw [requireSession_of_noSession k hx]; exact raiseFault_completes .noSession s
  | active => rwa [requireSession_of_active k hx]

/-- A unit M command stores or faults, and sends nothing (R79). -/
theorem rangeChecked_completes {c : Prop} [Decidable c] (store : c → State → State) (s : State) :
    Completes (unlessHalted s fun s => if hc : c then .next ((store hc s).respond .ok) else raiseFault .rangeFault s) := by
  refine unlessHalted_completes ?_
  split
  · exact ⟨_, rfl⟩
  · exact raiseFault_completes .rangeFault s

end

/-- RESET sends three writes at most, whatever the cache and the session it starts from (R95). -/
theorem execReset_completes {s : State} (hs : answersCome s 3) : Completes (execReset s) := by
  have hsession : AnsweredWithin 0 fun s => .done () { s with sess := .active } := fun m _ hm => Nat.zero_add m ▸ hm
  have hsteps := (answeredWithin_writeOnPage Config.cfgPage softwareResetBytes).andThen fun _ => hsession
  exact unlessHalted_completes (respondOk_completes (s := { s with cache := .unknown, sess := .noSession }) hsteps hs)

/-- Settles O39: no command's steps use up more answers than `maxTransactions` says, so none of them waits. -/
theorem everyAnsweredCommandCompletes : Obligations.EveryAnsweredCommandCompletes := by
  intro i s hs
  have hwrite := answeredWithin_writeOnPage
  have hread := answeredWithin_readOnPage
  have hscript := answeredWithin_runScript
  cases i with
  | setLed idx val => exact rangeChecked_completes (fun hc => memWrite ⟨idx, hc⟩ val) s
  | setPixel x y r g b => exact rangeChecked_completes (fun hc => writePixel ⟨x, hc.1⟩ ⟨y, hc.2⟩ r g b) s
  | selectPage p =>
    refine checked_completes ?_
    split
    · exact respondOk_completes (answeredWithin_ensurePage _) hs
    · exact raiseFault_completes .rangeFault s
  | reset => exact execReset_completes hs
  | setGlobalVoltage v => exact checked_completes (respondOk_completes (hwrite _ _) hs)
  | getGlobalVoltage => exact checked_completes (respondData_completes (hread _ _) hs)
  | setSoftwareShutdownModeOff =>
    exact checked_completes (respondOk_completes ((hread _ _).andThen fun _ => answeredWithin_busWrite _) hs)
  | getSoftwareShutdownMode => exact checked_completes (respondData_completes (hread _ _) hs)
  | setAllLedScales scale => exact checked_completes (respondOk_completes ((hwrite _ _).andThen fun _ => hwrite _ _) hs)
  | writeLedMatrix =>
    exact checked_completes (respondOk_completes ((hwrite _ _).andThen fun _ _ s => hwrite _ (s.sequenceBytes .s1) _ s) hs)
  | setLed0 => exact checked_completes (respondOk_completes (hscript _) hs)
  | setLed1 => exact checked_completes (respondOk_completes (hscript _) hs)
  | setLeds => exact checked_completes (respondOk_completes (hscript _) hs)

/-! ### A command whose first transaction is never answered (R46) -/

section
variable {s : State} {rest : List Answer}

theorem busWrite_of_never (bytes : List Byte) (h : s.answers = .never :: rest) : busWrite bytes s = .silent := by
  simp only [busWrite, oracleAnswer_cons _ h]

theorem busWriteRead_of_never (bytes : List Byte) (h : s.answers = .never :: rest) : busWriteRead bytes s = .silent := by
  simp only [busWriteRead, oracleAnswer_cons _ h]

/-- The page select waits for the unlock, unless the page is cached. -/
theorem ensurePage_of_never {p : Page} (hc : s.cache ≠ .page p) (h : s.answers = .never :: rest) :
    ensurePage p s = .silent := by
  simp only [ensurePage, if_neg hc, busWrite_of_never _ h, andThen_silent]

/-- A write on a page waits for the unlock, or for the write itself when the page is cached. -/
theorem writeOnPage_of_never (p : Page) (bytes : List Byte) (h : s.answers = .never :: rest) :
    writeOnPage p bytes s = .silent := by
  by_cases hc : s.cache = .page p
  · simp only [writeOnPage, ensurePage, if_pos hc, andThen_done, busWrite_of_never bytes h]
  · simp only [writeOnPage, ensurePage_of_never hc h, andThen_silent]

/-- A read on a page waits for the unlock, or for the read itself when the page is cached. -/
theorem readOnPage_of_never (p : Page) (bytes : List Byte) (h : s.answers = .never :: rest) :
    readOnPage p bytes s = .silent := by
  by_cases hc : s.cache = .page p
  · simp only [readOnPage, ensurePage, if_pos hc, andThen_done, busWriteRead_of_never bytes h]
  · simp only [readOnPage, ensurePage_of_never hc h, andThen_silent]

/-- Every script has a first pair, and its write waits (R127). -/
theorem runScript_of_never (c : Script) (h : s.answers = .never :: rest) : runScript (scriptPairs c) s = .silent := by
  simp only [scriptPairs, List.cons_append, runScript, writeOnPage_of_never _ _ h, andThen_silent]

/-- Behind the checks of R145 a command that waits stops with `transportNeverAnswers`. -/
theorem checked_of_stop {k : State → Host.Outcome State Fault Refusal} (hrun : s.running) (hsess : s.sess = .active)
    (hk : k s = .fault .transportNeverAnswers) :
    (unlessHalted s fun s => requireSession s k) = .fault .transportNeverAnswers := by
  rw [unlessHalted_of_running _ hrun, requireSession_of_active k hsess, hk]

/-- The steps of a command that answers OK wait when its first part does. -/
theorem respondOk_of_silent {α : Type} {p : Progress α} (k : α → State → Progress Unit) (hp : p = .silent) :
    respondOk (p.andThen k) = .fault .transportNeverAnswers := by
  rw [hp, andThen_silent, respondOk_silent]

theorem execSelectPage_of_never {p : Nat} (hp : p < 5) (hrun : s.running) (hsess : s.sess = .active)
    (hmiss : s.cache ≠ .page ⟨p, hp⟩) (h : s.answers = .never :: rest) :
    execSelectPage p s = .fault .transportNeverAnswers :=
  checked_of_stop hrun hsess (by rw [dif_pos hp, ensurePage_of_never hmiss h, respondOk_silent])

/-- RESET forgets the page before it starts, so it waits for the unlock (R95). -/
theorem execReset_of_never (hrun : s.running) (h : s.answers = .never :: rest) :
    execReset s = .fault .transportNeverAnswers := by
  rw [execReset, unlessHalted_of_running _ hrun]
  exact respondOk_of_silent _ (writeOnPage_of_never Config.cfgPage softwareResetBytes h)

/-- A script command, whichever of the parameters its script is. -/
theorem scriptCommand_of_never (script : Params → Script) (hrun : s.running) (hsess : s.sess = .active)
    (h : s.answers = .never :: rest) :
    (unlessHalted s fun s => requireSession s fun s => respondOk (runScript (scriptPairs (script s.params)) s)) =
      .fault .transportNeverAnswers :=
  checked_of_stop hrun hsess (by rw [runScript_of_never (script s.params) h, respondOk_silent])

end

/-- Settles O40: the first step of every unit P command that passes its checks asks for an answer, but for a cache hit of
SELECT_PAGE. -/
theorem unansweredTransactionWaitsForEver : Obligations.UnansweredTransactionWaitsForEver := by
  intro i s rest hunit hrange hrun hsess hmiss h
  have hwrite (p : Page) (bytes : List Byte) := writeOnPage_of_never p bytes h
  have hread (p : Page) (bytes : List Byte) := readOnPage_of_never p bytes h
  cases i with
  | setLed => cases hunit
  | setPixel => cases hunit
  | selectPage p =>
    have hp : p < 5 := of_decide_eq_true hrange
    exact execSelectPage_of_never hp hrun (hsess rfl) (fun hc => hmiss p ⟨p, hp⟩ rfl hc rfl) h
  | reset => exact execReset_of_never hrun h
  | setGlobalVoltage v => exact checked_of_stop hrun (hsess rfl) (by rw [hwrite, respondOk_silent])
  | getGlobalVoltage => exact checked_of_stop hrun (hsess rfl) (by rw [hread, respondData_silent])
  | setSoftwareShutdownModeOff => exact checked_of_stop hrun (hsess rfl) (respondOk_of_silent _ (hread _ _))
  | getSoftwareShutdownMode => exact checked_of_stop hrun (hsess rfl) (by rw [hread, respondData_silent])
  | setAllLedScales scale => exact checked_of_stop hrun (hsess rfl) (respondOk_of_silent _ (hwrite _ _))
  | writeLedMatrix => exact checked_of_stop hrun (hsess rfl) (respondOk_of_silent _ (hwrite _ _))
  | setLed0 => exact scriptCommand_of_never Params.scriptSetLed0 hrun (hsess rfl) h
  | setLed1 => exact scriptCommand_of_never Params.scriptSetLed1 hrun (hsess rfl) h
  | setLeds => exact scriptCommand_of_never Params.scriptSetLeds hrun (hsess rfl) h

end Sys2Proof.Machine
end

section
/-! Proofs of the obligations of 30_encoding: the decoder and the encoder are inverse to each other (O1, O2, O4), the rows of the
opcode map select the legal words (O3), the coding of responses (O5); a word that is no command and an operand out of its range
set the latch (O7, O13); a command gives one response, and none that reports success hides an error (O46, O48). The encoders are
characterised once, by the fields of their words, and the round trips and the rows go through these four characterisations. -/

namespace Sys2Proof

/-! ### A word by its fields (R50 to R54) -/

theorem append_eq_append_iff {m n : Nat} {a a' : BitVec m} {b b' : BitVec n} :
    a ++ b = a' ++ b' ↔ a = a' ∧ b = b' := by
  refine ⟨fun h => ⟨?_, ?_⟩, fun ⟨ha, hb⟩ => by rw [ha, hb]⟩
  · simpa [BitVec.extractLsb'_append_eq_left] using congrArg (BitVec.extractLsb' n m) h
  · simpa [BitVec.extractLsb'_append_eq_right] using congrArg (BitVec.extractLsb' 0 n) h

/-- Bits of a word are two fields put together when the upper ones are the one field and the lower ones the other. -/
theorem extractLsb'_eq_append_iff {k m n lo : Nat} {w : BitVec k} {a : BitVec m} {b : BitVec n} :
    w.extractLsb' lo (m + n) = a ++ b ↔ w.extractLsb' (lo + n) m = a ∧ w.extractLsb' lo n = b := by
  rw [← BitVec.extractLsb'_append_extractLsb'_eq_extractLsb' rfl, append_eq_append_iff]

theorem ofNat_toNat_self {n : Nat} (b : BitVec n) : BitVec.ofNat n b.toNat = b := by
  rw [BitVec.ofNat_toNat, BitVec.setWidth_eq]

/-- A field that a mask covers is not changed by it. -/
theorem extractLsb_and_of_set {k hi lo : Nat} (w : BitVec k) {m : BitVec k} (h : m.extractLsb hi lo = BitVec.allOnes _) :
    (w &&& m).extractLsb hi lo = w.extractLsb hi lo := by
  rw [BitVec.extractLsb_and, h, BitVec.and_allOnes]

/-- A field that a mask leaves out reads 0. -/
theorem extractLsb_and_of_clear {k hi lo : Nat} (w : BitVec k) {m : BitVec k} (h : m.extractLsb hi lo = 0) :
    (w &&& m).extractLsb hi lo = 0 := by
  rw [BitVec.extractLsb_and, h]
  exact BitVec.and_zero

section
variable {w : CommandWord} {op : Byte}

/-- The words of format N (R51). -/
theorem eq_encodeFormatN_iff : w = encodeFormatN op ↔ opcodeField w = op ∧ w.extractLsb 31 0 = 0 := by
  have hw : w = w.extractLsb' 0 (8 + 32) := BitVec.extractLsb'_eq_self.symm
  conv_lhs => rw [hw, encodeFormatN, extractLsb'_eq_append_iff]
  rfl

/-- The words of format V (R52). -/
theorem eq_encodeFormatV_iff {v : Byte} :
    w = encodeFormatV op v ↔ opcodeField w = op ∧ w.extractLsb 31 8 = 0 ∧ w.extractLsb 7 0 = v := by
  have hw : w = w.extractLsb' 0 (8 + (24 + 8)) := BitVec.extractLsb'_eq_self.symm
  conv_lhs => rw [hw, encodeFormatV]
  iterate 2 rw [extractLsb'_eq_append_iff]
  rfl

/-- The words of format L (R53). -/
theorem eq_encodeFormatL_iff {idx : Nat} {val : Byte} :
    w = encodeFormatL op idx val ↔ opcodeField w = op ∧ w.extractLsb 31 25 = 0 ∧ w.extractLsb 24 16 = BitVec.ofNat 9 idx ∧
      w.extractLsb 15 8 = val ∧ w.extractLsb 7 0 = 0 := by
  have hw : w = w.extractLsb' 0 (8 + (7 + (9 + (8 + 8)))) := BitVec.extractLsb'_eq_self.symm
  conv_lhs => rw [hw, encodeFormatL]
  iterate 4 rw [extractLsb'_eq_append_iff]
  rfl

/-- The words of format P (R54). -/
theorem eq_encodeFormatP_iff {x y : Nat} {r g b : Byte} :
    w = encodeFormatP op x y r g b ↔ opcodeField w = op ∧ w.extractLsb 31 28 = BitVec.ofNat 4 x ∧
      w.extractLsb 27 24 = BitVec.ofNat 4 y ∧ w.extractLsb 23 16 = r ∧ w.extractLsb 15 8 = g ∧ w.extractLsb 7 0 = b := by
  have hw : w = w.extractLsb' 0 (8 + (4 + (4 + (8 + (8 + 8))))) := BitVec.extractLsb'_eq_self.symm
  conv_lhs => rw [hw, encodeFormatP]
  iterate 5 rw [extractLsb'_eq_append_iff]
  rfl

end

/-! ### A format's decoder on the format's words -/

theorem decodeFormatN_encodeFormatN (op : Byte) (i : Instr) : decodeFormatN (encodeFormatN op) i = .ok i := by
  obtain ⟨-, hres⟩ := eq_encodeFormatN_iff.mp (Eq.refl (encodeFormatN op))
  exact if_pos hres

theorem decodeFormatV_encodeFormatV (op v : Byte) (f : Byte → Instr) :
    decodeFormatV (encodeFormatV op v) f = .ok (f v) := by
  obtain ⟨-, hres, hv⟩ := eq_encodeFormatV_iff.mp (Eq.refl (encodeFormatV op v))
  rw [decodeFormatV, if_pos hres, hv]

theorem decodeFormatL_encodeFormatL (op : Byte) {idx : Nat} (val : Byte) (f : Nat → Byte → Instr) (hidx : idx < 2 ^ 9) :
    decodeFormatL (encodeFormatL op idx val) f = .ok (f idx val) := by
  obtain ⟨-, hres, hi, hval, hlow⟩ := eq_encodeFormatL_iff.mp (Eq.refl (encodeFormatL op idx val))
  rw [decodeFormatL, if_pos ⟨hres, hlow⟩, hi, hval, BitVec.toNat_ofNat, Nat.mod_eq_of_lt hidx]

theorem decodeFormatP_encodeFormatP (op : Byte) {x y : Nat} (r g b : Byte) (f : Nat → Nat → Byte → Byte → Byte → Instr)
    (hx : x < 2 ^ 4) (hy : y < 2 ^ 4) : decodeFormatP (encodeFormatP op x y r g b) f = .ok (f x y r g b) := by
  obtain ⟨-, hxf, hyf, hr, hg, hb⟩ := eq_encodeFormatP_iff.mp (Eq.refl (encodeFormatP op x y r g b))
  rw [decodeFormatP, hxf, hyf, hr, hg, hb, BitVec.toNat_ofNat, BitVec.toNat_ofNat, Nat.mod_eq_of_lt hx, Nat.mod_eq_of_lt hy]

/-! ### The words a format's decoder takes -/

section
variable {w : CommandWord} {n : Nat} {i : Instr}

theorem opcodeField_eq_ofNat (hop : (opcodeField w).toNat = n) : opcodeField w = BitVec.ofNat 8 n := by
  rw [← hop, ofNat_toNat_self]

theorem eq_encodeFormatN_of_decode {j : Instr} (hop : (opcodeField w).toNat = n) (h : decodeFormatN w j = .ok i) :
    i = j ∧ w = encodeFormatN (BitVec.ofNat 8 n) := by
  unfold decodeFormatN at h
  split at h
  · next hres =>
    cases h
    exact ⟨rfl, eq_encodeFormatN_iff.mpr ⟨opcodeField_eq_ofNat hop, hres⟩⟩
  · cases h

theorem eq_encodeFormatV_of_decode {f : Byte → Instr} (hop : (opcodeField w).toNat = n) (h : decodeFormatV w f = .ok i) :
    ∃ v, i = f v ∧ w = encodeFormatV (BitVec.ofNat 8 n) v := by
  unfold decodeFormatV at h
  split at h
  · next hres =>
    cases h
    exact ⟨_, rfl, eq_encodeFormatV_iff.mpr ⟨opcodeField_eq_ofNat hop, hres, rfl⟩⟩
  · cases h

theorem eq_encodeFormatL_of_decode {f : Nat → Byte → Instr} (hop : (opcodeField w).toNat = n)
    (h : decodeFormatL w f = .ok i) :
    ∃ idx val, i = f idx val ∧ idx < 2 ^ 9 ∧ w = encodeFormatL (BitVec.ofNat 8 n) idx val := by
  unfold decodeFormatL at h
  split at h
  · next hres =>
    cases h
    obtain ⟨hhigh, hlow⟩ := hres
    refine ⟨_, _, rfl, BitVec.isLt _, eq_encodeFormatL_iff.mpr ⟨opcodeField_eq_ofNat hop, hhigh, ?_, rfl, hlow⟩⟩
    exact (ofNat_toNat_self _).symm
  · cases h

theorem eq_encodeFormatP_of_decode {f : Nat → Nat → Byte → Byte → Byte → Instr} (hop : (opcodeField w).toNat = n)
    (h : decodeFormatP w f = .ok i) :
    ∃ x y r g b, i = f x y r g b ∧ x < 2 ^ 4 ∧ y < 2 ^ 4 ∧ w = encodeFormatP (BitVec.ofNat 8 n) x y r g b := by
  cases h
  refine ⟨_, _, _, _, _, rfl, BitVec.isLt _, BitVec.isLt _,
    eq_encodeFormatP_iff.mpr ⟨opcodeField_eq_ofNat hop, ?_, ?_, rfl, rfl, rfl⟩⟩ <;>
  exact (ofNat_toNat_self _).symm

end

/-! ### The decoder and the encoder are inverse to each other (R55) -/

/-- The format's decoder that the opcode of a command selects. -/
def decodeAs (w : CommandWord) : Instr → Except DecodeError Instr
  | .setLed _ _         => decodeFormatL w .setLed
  | .setPixel _ _ _ _ _ => decodeFormatP w .setPixel
  | .selectPage _       => decodeFormatV w fun v => .selectPage v.toNat
  | .setGlobalVoltage _ => decodeFormatV w .setGlobalVoltage
  | .setAllLedScales _  => decodeFormatV w .setAllLedScales
  | i                   => decodeFormatN w i

theorem decode_of_opcodeField {w : CommandWord} {i : Instr} (h : opcodeField w = Laws.opcodeOf i) :
    decode w = decodeAs w i := by
  unfold decode
  rw [h]
  cases i <;> rfl

theorem opcodeField_encode (i : Instr) : opcodeField (encode i) = Laws.opcodeOf i := by
  cases i with
  | setLed idx val => exact Laws.OpcodeOfEncode.setLed idx val
  | setPixel x y r g b => exact Laws.OpcodeOfEncode.setPixel x y r g b
  | selectPage p => exact Laws.OpcodeOfEncode.selectPage p
  | reset => exact Laws.OpcodeOfEncode.reset
  | setGlobalVoltage v => exact Laws.OpcodeOfEncode.setGlobalVoltage v
  | getGlobalVoltage => exact Laws.OpcodeOfEncode.getGlobalVoltage
  | setSoftwareShutdownModeOff => exact Laws.OpcodeOfEncode.setSoftwareShutdownModeOff
  | getSoftwareShutdownMode => exact Laws.OpcodeOfEncode.getSoftwareShutdownMode
  | setAllLedScales scale => exact Laws.OpcodeOfEncode.setAllLedScales scale
  | writeLedMatrix => exact Laws.OpcodeOfEncode.writeLedMatrix
  | setLed0 => exact Laws.OpcodeOfEncode.setLed0
  | setLed1 => exact Laws.OpcodeOfEncode.setLed1
  | setLeds => exact Laws.OpcodeOfEncode.setLeds

theorem wellFormed_setPixel_iff {x y : Nat} {r g b : Byte} :
    (Instr.setPixel x y r g b).wellFormed = true ↔ x < 2 ^ 4 ∧ y < 2 ^ 4 := by
  simp [Instr.wellFormed]

/-- Settles O1: the opcode of the command's word selects the decoder of the format the word was written in. -/
theorem everyCommandDecodesBack : Obligations.EveryCommandDecodesBack := by
  intro i hwf
  rw [decode_of_opcodeField (opcodeField_encode i)]
  cases i with
  | setLed idx val => exact decodeFormatL_encodeFormatL _ _ _ (of_decide_eq_true hwf)
  | setPixel x y r g b =>
    obtain ⟨hx, hy⟩ := wellFormed_setPixel_iff.mp hwf
    exact decodeFormatP_encodeFormatP _ _ _ _ _ hx hy
  | selectPage p =>
    have hp : (BitVec.ofNat 8 p).toNat = p := Nat.mod_eq_of_lt (of_decide_eq_true hwf)
    rw [encode, decodeAs, decodeFormatV_encodeFormatV, hp]
  | setGlobalVoltage | setAllLedScales => exact decodeFormatV_encodeFormatV _ _ _
  | _ => exact decodeFormatN_encodeFormatN _ _

/-- Settles O2: in each branch of the opcode map the word is that of the format with the branch's opcode. -/
theorem everyLegalWordEncodesBack : Obligations.EveryLegalWordEncodesBack := by
  intro w i h
  unfold decode at h
  split at h
  case h_1 hop =>
    obtain ⟨idx, val, rfl, hidx, hw⟩ := eq_encodeFormatL_of_decode hop h
    exact ⟨decide_eq_true hidx, hw.symm⟩
  case h_2 hop =>
    obtain ⟨x, y, r, g, b, rfl, hx, hy, hw⟩ := eq_encodeFormatP_of_decode hop h
    exact ⟨wellFormed_setPixel_iff.mpr ⟨hx, hy⟩, hw.symm⟩
  case h_3 hop =>
    obtain ⟨v, rfl, hw⟩ := eq_encodeFormatV_of_decode hop h
    refine ⟨decide_eq_true v.isLt, ?_⟩
    rw [encode, ofNat_toNat_self]
    exact hw.symm
  case h_5 hop | h_9 hop =>
    obtain ⟨v, rfl, hw⟩ := eq_encodeFormatV_of_decode hop h
    exact ⟨rfl, hw.symm⟩
  case h_14 => cases h
  all_goals
    next hop =>
    obtain ⟨rfl, hw⟩ := eq_encodeFormatN_of_decode hop h
    exact ⟨rfl, hw.symm⟩

/-! ### The rows of the opcode map (R55) -/

/-- The row of the opcode map that a command's word selects. -/
def tableRow (i : Instr) : CommandWord × CommandWord :=
  (match i with
    | .setLed _ _                                              => 0xFFFE0000FF
    | .setPixel _ _ _ _ _                                      => 0xFF00000000
    | .selectPage _ | .setGlobalVoltage _ | .setAllLedScales _ => 0xFFFFFFFF00
    | _                                                        => 0xFFFFFFFFFF,
   encodeFormatN (Laws.opcodeOf i))

/-- The commands with all operands 0, in the order of the opcode map. -/
def zeroCommands : List Instr :=
  [.setLed 0 0, .setPixel 0 0 0 0 0, .selectPage 0, .reset, .setGlobalVoltage 0, .getGlobalVoltage,
   .setSoftwareShutdownModeOff, .getSoftwareShutdownMode, .setAllLedScales 0, .writeLedMatrix, .setLed0, .setLed1, .setLeds]

theorem opcodeRows_eq_map : opcodeRows = zeroCommands.map tableRow := by decide

theorem tableRow_mem_opcodeRows (i : Instr) : tableRow i ∈ opcodeRows := by
  rw [opcodeRows_eq_map, List.mem_map]
  cases i with
  | setLed => exact ⟨.setLed 0 0, by decide, rfl⟩
  | setPixel => exact ⟨.setPixel 0 0 0 0 0, by decide, rfl⟩
  | selectPage => exact ⟨.selectPage 0, by decide, rfl⟩
  | setGlobalVoltage => exact ⟨.setGlobalVoltage 0, by decide, rfl⟩
  | setAllLedScales => exact ⟨.setAllLedScales 0, by decide, rfl⟩
  | _ => exact ⟨_, by decide, rfl⟩

/-! For each format: masking leaves the opcode and the reserved bits, which decide whether the format's decoder takes the word. -/

section
variable {w : CommandWord} {op : Byte}

theorem and_maskN_iff (j : Instr) :
    w &&& 0xFFFFFFFFFF = encodeFormatN op ↔ opcodeField w = op ∧ ∃ i, decodeFormatN w j = .ok i := by
  rw [eq_encodeFormatN_iff, opcodeField, decodeFormatN]
  simp (disch := decide) only [extractLsb_and_of_set]
  split <;> simp_all [opcodeField]

theorem and_maskV_iff (f : Byte → Instr) :
    w &&& 0xFFFFFFFF00 = encodeFormatV op 0 ↔ opcodeField w = op ∧ ∃ i, decodeFormatV w f = .ok i := by
  rw [eq_encodeFormatV_iff, opcodeField, decodeFormatV]
  simp (disch := decide) only [extractLsb_and_of_set, extractLsb_and_of_clear]
  split <;> simp_all [opcodeField]

theorem and_maskL_iff (f : Nat → Byte → Instr) :
    w &&& 0xFFFE0000FF = encodeFormatL op 0 0 ↔ opcodeField w = op ∧ ∃ i, decodeFormatL w f = .ok i := by
  rw [eq_encodeFormatL_iff, opcodeField, decodeFormatL]
  simp (disch := decide) only [extractLsb_and_of_set, extractLsb_and_of_clear]
  split <;> simp_all [opcodeField]

theorem and_maskP_iff (f : Nat → Nat → Byte → Byte → Byte → Instr) :
    w &&& 0xFF00000000 = encodeFormatP op 0 0 0 0 0 ↔ opcodeField w = op ∧ ∃ i, decodeFormatP w f = .ok i := by
  rw [eq_encodeFormatP_iff, opcodeField, decodeFormatP]
  simp (disch := decide) only [extractLsb_and_of_set, extractLsb_and_of_clear]
  simp [opcodeField]

end

/-- A word selects the row of a command when it has the command's opcode and is legal. -/
theorem selects_tableRow_iff (w : CommandWord) (i : Instr) :
    w &&& (tableRow i).1 = (tableRow i).2 ↔ opcodeField w = Laws.opcodeOf i ∧ ∃ j, decode w = .ok j := by
  have hformat : w &&& (tableRow i).1 = (tableRow i).2 ↔ opcodeField w = Laws.opcodeOf i ∧ ∃ j, decodeAs w i = .ok j := by
    cases i with
    | setLed => exact and_maskL_iff _
    | setPixel => exact and_maskP_iff _
    | selectPage => exact and_maskV_iff fun v => .selectPage v.toNat
    | setGlobalVoltage => exact and_maskV_iff .setGlobalVoltage
    | setAllLedScales => exact and_maskV_iff .setAllLedScales
    | _ => exact and_maskN_iff _
  rw [hformat]
  exact and_congr_right fun hop => by rw [decode_of_opcodeField hop]

/-- Settles O3: a legal word selects the row of the command it decodes to, and every row is the row of a command. -/
theorem legalWordsSelectATableRow : Obligations.LegalWordsSelectATableRow := by
  intro w
  constructor
  · rintro ⟨i, hi⟩
    obtain ⟨-, hw⟩ := everyLegalWordEncodesBack w i hi
    exact ⟨tableRow i, tableRow_mem_opcodeRows i, (selects_tableRow_iff w i).mpr ⟨hw ▸ opcodeField_encode i, i, hi⟩⟩
  · rintro ⟨row, hrow, hw⟩
    rw [opcodeRows_eq_map] at hrow
    obtain ⟨i, -, rfl⟩ := List.mem_map.mp hrow
    exact ((selects_tableRow_iff w i).mp hw).2

/-- Settles O4: each legal word is the word of its command, and the two illegal ones are evaluated. -/
theorem sampleWordsDecode : Obligations.SampleWordsDecode :=
  ⟨everyCommandDecodesBack (.setLed 356 0x7F) rfl, everyCommandDecodesBack (.setPixel 9 1 0x11 0x22 0x33) rfl,
   everyCommandDecodesBack (.selectPage 4) rfl, everyCommandDecodesBack .reset rfl,
   everyCommandDecodesBack (.setGlobalVoltage 0x80) rfl, everyCommandDecodesBack .setSoftwareShutdownModeOff rfl,
   everyCommandDecodesBack (.setAllLedScales 0x40) rfl, everyCommandDecodesBack .setLeds rfl, by decide, by decide⟩

end Sys2Proof

namespace Sys2Proof.Machine

/-! ### Responses (R58) -/

/-- Settles O5: by the constructors of a response. -/
theorem responseCodes : Obligations.ResponseCodes := by
  refine ⟨fun _ _ _ => ⟨rfl, rfl, rfl, rfl⟩, fun r => ?_, rfl, rfl, rfl, fun _ _ _ => ⟨rfl, rfl, rfl, rfl⟩⟩
  cases r with
  | ok | okData => exact (by decide : (0 : BitVec 2) ≠ 3)
  | errTransport => exact (by decide : (1 : BitVec 2) ≠ 3)
  | fault => exact (by decide : (2 : BitVec 2) ≠ 3)

/-- Settles O48: each effect a command can have ends in one response, and the transactions it issued are an advance. -/
theorem everyCommandRespondsExactlyOnce : Obligations.EveryCommandRespondsExactlyOnce := by
  intro i s t h
  cases exec_effect h with
  | fault k ht => subst ht; exact ⟨⟨_, rfl⟩, rfl, [], by simp, rfl, rfl⟩
  | stored u _ hu ht => rw [ht, hu]; exact ⟨⟨_, rfl⟩, rfl, [], by simp, rfl, rfl⟩
  | completed r added _ _ _ _ _ _ ht => subst ht; exact ⟨⟨r, rfl⟩, rfl, added, rfl, rfl, rfl⟩
  | aborted _ added last _ _ _ _ _ _ _ ht => subst ht; exact ⟨⟨_, rfl⟩, rfl, added ++ [last], rfl, rfl, rfl⟩

/-- Settles O46: of the effects a command can have, those that answer OK or OK_DATA add no error to the trace. -/
theorem successfulCommandHasNoError : Obligations.SuccessfulCommandHasNoError := by
  intro i s t h hok
  cases exec_effect h with
  | fault k ht => subst ht; simp at hok
  | stored u _ hu ht => rw [ht, hu]; exact ⟨[], by simp, by simp⟩
  | completed _ added _ _ _ _ hadded _ ht => subst ht; exact ⟨added, rfl, hadded⟩
  | aborted _ _ _ _ _ _ _ _ _ _ ht => subst ht; simp at hok

/-! ### Illegal words and operands out of range (R57, R144, R145) -/

/-- Settles O7: the word takes the illegal branch of `step`, which raises the fault whatever the session. -/
theorem illegalWordSetsTheLatch : Obligations.IllegalWordSetsTheLatch := by
  intro s w rest why hs hport hw
  have hstep : step s = illegalWord s := by simp only [step, fetch, hport, List.head?_cons, hw]
  rw [hstep, illegalWord, unlessHalted_of_running _ hs]
  simp [raiseFault, State.respond, hport]

theorem exec_of_outOfRange {i : Instr} {s : State} (hrange : i.inRange = false) (hs : s.running)
    (hsess : i.needsSession = true → s.sess = .active) : exec i s = raiseFault .rangeFault s := by
  cases i with
  | setLed idx val =>
    have hidx : ¬ idx < 357 := of_decide_eq_false hrange
    simp only [exec, execSetLed, unlessHalted_of_running _ hs, dif_neg hidx]
  | setPixel x y r g b =>
    have hxy : ¬ (x < 13 ∧ y < 9) := by simpa [Instr.inRange] using hrange
    simp only [exec, execSetPixel, unlessHalted_of_running _ hs, dif_neg hxy]
  | selectPage p =>
    have hp : ¬ p < 5 := of_decide_eq_false hrange
    simp only [exec, execSelectPage, unlessHalted_of_running _ hs, requireSession_of_active _ (hsess rfl), dif_neg hp]
  | _ => cases hrange

/-- Settles O13: the fault entry of R144, written out. -/
theorem outOfRangeOperandFaults : Obligations.OutOfRangeOperandFaults := fun _ _ hrange hs hsess =>
  exec_of_outOfRange hrange hs hsess

end Sys2Proof.Machine
end

section
/-! Proofs of the obligations of 41_mapper: the pixels fill the slots (O18) and stay in one sequence each (O19), SET_PIXEL stores
three bytes (O23), stores to different pixels commute (O24), and the formulas themselves (O16, O17). The two about stores rest on
what a position of the frame store reads after `writePixel`: one of the pixel's own bytes, or what it read before. -/

namespace Sys2Proof.Machine

/-! ### The formulas of the mapping (R71 to R73) -/

/-- Settles O16: the formulas are those of `slot` and `base`. -/
theorem slotAndBaseFollowTheFormulas : Obligations.SlotAndBaseFollowTheFormulas := fun x row _ _ =>
  ⟨rfl, rfl, Nat.dvd_mul_right 3 (slot x row)⟩

theorem order_of_odd {x : Nat} (r g b : Byte) (h : x % 2 = 1 ∨ x = 12) : order x r g b = (g, r, b) := if_pos h

theorem order_of_even {x : Nat} (r g b : Byte) (h : ¬ (x % 2 = 1 ∨ x = 12)) : order x r g b = (b, g, r) := if_neg h

/-- Settles O17: the columns of the first list are the odd ones and 12, those of the second even and not 12. -/
theorem orderFollowsColumnParity : Obligations.OrderFollowsColumnParity := by
  intro x r g b _
  simp only [List.mem_cons, List.not_mem_nil, or_false]
  exact ⟨fun hx => order_of_odd r g b (by omega), fun hx => order_of_even r g b (by omega)⟩

/-! ### Every slot is a pixel's, in one sequence (R76, R77) -/

/-- Every slot is one of the grid's: the first 90 lie in rows of ten, the others in rows of three. -/
theorem exists_slot_eq {q : Nat} (h : q < 117) : ∃ x row, x < 13 ∧ row < 9 ∧ slot x row = q := by
  rcases Nat.lt_or_ge q 90 with hq | hq
  · refine ⟨q % 10, q / 10, by omega, by omega, ?_⟩
    rw [slot_of_lt _ (Nat.mod_lt q (by decide))]
    omega
  · refine ⟨10 + (q - 90) % 3, (q - 90) / 3, by omega, by omega, ?_⟩
    rw [slot_of_ge _ (Nat.le_add_right 10 _)]
    omega

/-- Every physical row is the image of a logical one: nine rows, no two on the same (R15). -/
theorem rowOf_surjective (m : RowMap) : Function.Surjective (rowOf m) :=
  Finite.surjective_of_injective (rowOf_injective m)

/-- The slots of the pixels. -/
theorem exists_pixel_slot_iff (m : RowMap) (q : Nat) :
    (∃ (x : Fin 13) (y : Fin 9), slot x (rowOf m y) = q) ↔ q < 117 := by
  constructor
  · rintro ⟨x, y, rfl⟩
    exact slot_lt x.isLt (rowOf m y).isLt
  · intro hq
    obtain ⟨x, row, hx, hrow, hslot⟩ := exists_slot_eq hq
    obtain ⟨y, hy⟩ := rowOf_surjective m ⟨row, hrow⟩
    exact ⟨⟨x, hx⟩, y, by rw [hy]; exact hslot⟩

/-- The first channels of the pixels: three times the slots. -/
theorem exists_pixel_base_iff (m : RowMap) (k : Nat) :
    (∃ (x : Fin 13) (y : Fin 9), base x (rowOf m y) = k) ↔ 3 ∣ k ∧ k < 351 := by
  constructor
  · rintro ⟨x, y, rfl⟩
    have hslot := slot_lt x.isLt (rowOf m y).isLt
    exact ⟨Nat.dvd_mul_right 3 _, by rw [base]; omega⟩
  · rintro ⟨⟨q, rfl⟩, hk⟩
    obtain ⟨x, y, hslot⟩ := (exists_pixel_slot_iff m q).mpr (by omega)
    exact ⟨x, y, congrArg (3 * ·) hslot⟩

/-- Settles O18: a slot determines column and physical row, and that row the logical one; every slot is reached. -/
theorem pixelsFillTheSlotsExactlyOnce : Obligations.PixelsFillTheSlotsExactlyOnce := by
  refine fun m => ⟨fun x x' y y' h => ?_, exists_pixel_slot_iff m, exists_pixel_base_iff m⟩
  obtain ⟨hx, hrow⟩ := slot_injective x.isLt x'.isLt (rowOf m y).isLt (rowOf m y').isLt h
  exact ⟨Fin.ext hx, rowOf_injective m (Fin.ext hrow)⟩

/-- The slots up to 59 are the rows up to 5 of the first column block. -/
theorem slot_le_59_iff (x row : Nat) : slot x row ≤ 59 ↔ x < 10 ∧ row ≤ 5 := by
  rcases Nat.lt_or_ge x 10 with hx | hx
  · rw [slot_of_lt row hx]; omega
  · rw [slot_of_ge row hx]; omega

/-- Settles O19: slot 59 ends at channel 179, the last of S0, and slot 60 begins at channel 180, the first of S1. -/
theorem pixelNeverStraddlesTheSequences : Obligations.PixelNeverStraddlesTheSequences := by
  intro m x y i
  have hval := pixelChannel_val m x y i
  refine ⟨fun hslot => ?_, fun hslot => ?_, slot_le_59_iff x (rowOf m y)⟩
  · exact loc_eq_s0_iff.mpr ⟨by omega, by rw [base]; omega⟩
  · exact loc_eq_s1_iff.mpr ⟨by omega, by rw [base]; omega⟩

/-! ### What a channel reads after a store (R32) -/

@[simp] theorem memRead_respond (k : Channel) (s : State) (r : Response) : memRead k (s.respond r) = memRead k s :=
  byteAt_respond s r _ _

/-- The byte at a channel's position is what the channel reads. -/
theorem byteAt_of_eq_loc {k : Channel} {q : Sequence} {a : Nat} (s : State) (h : (q, a) = loc k) :
    s.byteAt q a = memRead k s := by rw [memRead, ← h]

theorem memRead_memWrite_same {s : State} (k : Channel) (v : Byte) (h : s.frameOk) : memRead k (memWrite k v s) = v :=
  byteAt_memWrite_same k v h

theorem memRead_memWrite_other (s : State) {k k' : Channel} (v : Byte) (h : k' ≠ k) :
    memRead k' (memWrite k v s) = memRead k' s := byteAt_memWrite_other s v (loc_injective.ne h)

/-! ### The stores of SET_PIXEL (R75) -/

/-- The byte that `writePixel` stores to the pixel's channel `i`: component `i` of `order` (R73). -/
def pixelByte (x : Nat) (r g b : Byte) : Fin 3 → Byte
  | 0 => (order x r g b).1
  | 1 => (order x r g b).2.1
  | 2 => (order x r g b).2.2

section
variable {s : State} {x : Fin 13} {y : Fin 9}

/-- The pixel's channels read its bytes: the three stores are to different channels. -/
theorem memRead_writePixel (r g b : Byte) (h : s.frameOk) (i : Fin 3) :
    memRead (pixelChannel s.params.rowMap x y i) (writePixel x y r g b s) = pixelByte x r g b i := by
  have hne {j j' : Fin 3} (hj : j ≠ j') : pixelChannel s.params.rowMap x y j ≠ pixelChannel s.params.rowMap x y j' :=
    fun heq => hj (pixelChannel_injective heq).2.2
  have h0 := memWrite_frameOk (pixelChannel s.params.rowMap x y 0) (order x r g b).1 h
  have h1 := memWrite_frameOk (pixelChannel s.params.rowMap x y 1) (order x r g b).2.1 h0
  match i with
  | 0 =>
    rw [writePixel, memRead_memWrite_other _ _ (hne (by decide)), memRead_memWrite_other _ _ (hne (by decide))]
    exact memRead_memWrite_same _ _ h
  | 1 =>
    rw [writePixel, memRead_memWrite_other _ _ (hne (by decide))]
    exact memRead_memWrite_same _ _ h0
  | 2 => exact memRead_memWrite_same _ _ h1

/-- Every position but those of the pixel's channels keeps its byte. -/
theorem byteAt_writePixel_other {q : Sequence} {a : Nat} (r g b : Byte)
    (h : ∀ i, (q, a) ≠ loc (pixelChannel s.params.rowMap x y i)) :
    (writePixel x y r g b s).byteAt q a = s.byteAt q a := by
  rw [writePixel, byteAt_memWrite_other _ _ (h 2), byteAt_memWrite_other _ _ (h 1), byteAt_memWrite_other _ _ (h 0)]

/-- What a position reads after the pixel's stores depends on what it read before, and on nothing else of the state. -/
theorem byteAt_writePixel_congr {t : State} {q : Sequence} {a : Nat} (r g b : Byte) (hs : s.frameOk) (ht : t.frameOk)
    (hparams : t.params = s.params) (h : t.byteAt q a = s.byteAt q a) :
    (writePixel x y r g b t).byteAt q a = (writePixel x y r g b s).byteAt q a := by
  by_cases hown : ∃ i, (q, a) = loc (pixelChannel s.params.rowMap x y i)
  · obtain ⟨i, hi⟩ := hown
    have hbyte := memRead_writePixel (x := x) (y := y) r g b ht i
    rw [hparams] at hbyte
    rw [byteAt_of_eq_loc _ hi, byteAt_of_eq_loc _ hi, hbyte, memRead_writePixel r g b hs]
  · have hother := not_exists.mp hown
    rw [byteAt_writePixel_other r g b hother, byteAt_writePixel_other r g b (hparams ▸ hother), h]

/-- SET_PIXEL in range: the three stores, and the response OK (R75). -/
theorem exec_setPixel_of_lt {x y : Nat} (r g b : Byte) (hx : x < 13) (hy : y < 9) (hs : s.running) :
    exec (.setPixel x y r g b) s = .next ((writePixel ⟨x, hx⟩ ⟨y, hy⟩ r g b s).respond .ok) := by
  have hxy : x < Config.gridW ∧ y < Config.gridH := ⟨hx, hy⟩
  simp only [exec, execSetPixel, unlessHalted_of_running _ hs, dif_pos hxy]

end

/-- Settles O23: the command is the three stores to a canonical frame store. -/
theorem setPixelStoresThreeBytes : Obligations.SetPixelStoresThreeBytes := by
  intro s x y r g b hx hy hs hframe
  refine ⟨_, exec_setPixel_of_lt r g b hx hy hs, fun c0 c1 c2 hc => ?_, fun q a hne => ?_, ?_⟩
  · have horder : (c0, c1, c2) = order x r g b := hc
    simp only [memRead_respond, memRead_writePixel r g b hframe, pixelByte, ← horder, and_self]
  · rw [byteAt_respond, byteAt_writePixel_other r g b hne]
  · exact congrArg (State.respond · .ok) (writePixel_onlyFrame ⟨x, hx⟩ ⟨y, hy⟩ r g b s)

/-! ### Stores to different pixels (R76) -/

/-- States that differ in canonical frame stores at most are equal when these read alike. -/
theorem OnlyFrame.eq_of_byteAt {s t t' : State} (ht : OnlyFrame s t) (ht' : OnlyFrame s t') (hwf : t.frameOk)
    (hwf' : t'.frameOk) (h : ∀ q a, t.byteAt q a = t'.byteAt q a) : t = t' := by
  have h0 : t.s0 = t'.s0 := wf_ext (hwf.memory_wf .s0) (hwf'.memory_wf .s0) (h .s0)
  have h1 : t.s1 = t'.s1 := wf_ext (hwf.memory_wf .s1) (hwf'.memory_wf .s1) (h .s1)
  rw [ht, ht', h0, h1]

/-- Settles O24: no position is both pixels', and the stores of a pixel that does not have the position may be left out. -/
theorem pixelWritesCommute : Obligations.PixelWritesCommute := by
  intro s x x' y y' r g b r' g' b' hframe hne
  have hwf := writePixel_frameOk x y r g b hframe
  have hwf' := writePixel_frameOk x' y' r' g' b' hframe
  refine OnlyFrame.eq_of_byteAt ((writePixel_onlyFrame x' y' r' g' b' s).trans (writePixel_onlyFrame ..))
    ((writePixel_onlyFrame x y r g b s).trans (writePixel_onlyFrame ..)) (writePixel_frameOk _ _ _ _ _ hwf')
    (writePixel_frameOk _ _ _ _ _ hwf) fun q a => ?_
  by_cases hown : ∃ i, (q, a) = loc (pixelChannel s.params.rowMap x y i)
  · obtain ⟨i, hi⟩ := hown
    have hother : ∀ j, (q, a) ≠ loc (pixelChannel s.params.rowMap x' y' j) := fun j hj => by
      obtain ⟨hx, hy, -⟩ := pixelChannel_injective (loc_injective (hi.symm.trans hj))
      exact hne.elim (absurd hx) (absurd hy)
    calc (writePixel x y r g b (writePixel x' y' r' g' b' s)).byteAt q a
      _ = (writePixel x y r g b s).byteAt q a :=
        byteAt_writePixel_congr r g b hframe hwf' (writePixel_params ..) (byteAt_writePixel_other r' g' b' hother)
      _ = (writePixel x' y' r' g' b' (writePixel x y r g b s)).byteAt q a :=
        (byteAt_writePixel_other r' g' b' (by simpa only [writePixel_params])).symm
  · have hother := not_exists.mp hown
    calc (writePixel x y r g b (writePixel x' y' r' g' b' s)).byteAt q a
      _ = (writePixel x' y' r' g' b' s).byteAt q a :=
        byteAt_writePixel_other r g b (by simpa only [writePixel_params])
      _ = (writePixel x' y' r' g' b' (writePixel x y r g b s)).byteAt q a :=
        (byteAt_writePixel_congr r' g' b' hframe hwf (writePixel_params ..) (byteAt_writePixel_other r g b hother)).symm

end Sys2Proof.Machine
end

section
/-! Proofs of the obligations of 42_page_protocol: every page select keeps its own unlock (O56); what the commands send and leave
when the transport answers `ok` (O26 to O31, O33, O34), when it fails (O41 to O45), and when there is no session (O12, O51). The
commands are settled from what their parts do, a page select and one transaction on the selected page, when the next answers are
known. -/

namespace Sys2Proof.Machine

/-! ### Every page select follows its own unlock (R152, R171) -/

theorem selectsUnlocked_of_trace_eq {s t : State} (htrace : t.trace = s.trace) (h : s.selectsUnlocked) :
    t.selectsUnlocked := by
  simpa only [State.selectsUnlocked, htrace] using h

theorem selectsUnlocked_wireProperty : WireProperty State.selectsUnlocked := fun _ _ htrace _ _ =>
  selectsUnlocked_of_trace_eq htrace

/-- One more entry keeps the selects unlocked if it is no select, or if the trace ends with a successful unlock. -/
theorem State.selectsUnlocked.snoc {s t : State} {x : TraceEntry} (h : s.selectsUnlocked)
    (htrace : t.trace = s.trace ++ [x])
    (hx : x.isPageSelect = true → ∃ before u, s.trace = before ++ [u] ∧ u.isUnlock = true) : t.selectsUnlocked := by
  intro before y after heq hselect
  rw [htrace] at heq
  rcases List.eq_nil_or_concat after with rfl | ⟨after', z, rfl⟩
  · obtain ⟨hbefore, hlast⟩ := List.append_inj' heq rfl
    cases hlast
    obtain ⟨before', u, hunlock⟩ := hx hselect
    exact ⟨before', u, hbefore ▸ hunlock⟩
  · have hinit : s.trace ++ [x] = (before ++ y :: after') ++ [z] := by simpa using heq
    exact h before y after' (List.append_inj' hinit rfl).1 hselect

/-- An entry that is no page select keeps the selects unlocked. -/
theorem selectsUnlocked_advance {s : State} {x : TraceEntry} (h : s.selectsUnlocked) (hx : x.isPageSelect = false) :
    (s.advance [x]).selectsUnlocked :=
  h.snoc rfl fun hselect => by simp [hx] at hselect

/-- A page select, whatever its outcome, keeps the selects unlocked right after a successful unlock. -/
theorem selectsUnlocked_advance_unlock {s : State} (h : s.selectsUnlocked) (x : TraceEntry) :
    (s.advance [okWrite s unlockBytes, x]).selectsUnlocked := by
  have hunlocked : (s.advance [okWrite s unlockBytes]).selectsUnlocked :=
    selectsUnlocked_advance h rfl
  exact hunlocked.snoc (x := x) (by simp) fun _ => ⟨s.trace, okWrite s unlockBytes, rfl, rfl⟩

theorem selectsUnlocked_errorEntry {s : State} (h : s.selectsUnlocked) : (errorEntry s).selectsUnlocked :=
  selectsUnlocked_of_trace_eq (errorEntry_trace s) h

theorem busWrite_keeps_selectsUnlocked {bytes : List Byte} (hb : bytes.head? ≠ some 0xFD) :
    StepsKeep State.selectsUnlocked (busWrite bytes) := by
  intro s hs
  have hselect (o : BusOutcome) : TraceEntry.isPageSelect ⟨.write s.params.busAddr bytes, o⟩ = false := by
    rw [isPageSelect_write, decide_eq_false hb]
  rcases busWrite_cases bytes s with h | ⟨e, h⟩ | h <;> rw [h]
  · exact selectsUnlocked_advance hs (hselect _)
  · exact selectsUnlocked_errorEntry (selectsUnlocked_advance hs (hselect _))
  · trivial

theorem busWriteRead_keeps_selectsUnlocked (reg : Byte) : StepsKeep State.selectsUnlocked (busWriteRead [reg]) := by
  intro s hs
  rcases busWriteRead_cases reg s with ⟨d, h⟩ | ⟨e, h⟩ | h <;> rw [h]
  · exact selectsUnlocked_advance hs rfl
  · exact selectsUnlocked_errorEntry (selectsUnlocked_advance hs rfl)
  · trivial

/-- The page select sends its select only after its own unlock was answered `ok` (R93). -/
theorem ensurePage_keeps_selectsUnlocked (p : Page) : StepsKeep State.selectsUnlocked (ensurePage p) := by
  intro s hs
  rcases ensurePage_cases p s with ⟨-, h⟩ | ⟨-, h | ⟨e, h⟩ | ⟨e, h⟩ | h⟩ <;> rw [h]
  · exact hs
  · exact selectsUnlocked_of_trace_eq rfl (selectsUnlocked_advance_unlock hs _)
  · exact selectsUnlocked_errorEntry (selectsUnlocked_advance hs (isPageSelect_write _ _ _))
  · exact selectsUnlocked_errorEntry (selectsUnlocked_advance_unlock hs _)
  · trivial

/-- Settles O56: hardware reset empties the trace, a select is sent right after its own unlock only, and no data transaction is a
select. -/
theorem stepKeepsEverySelectUnlocked : Obligations.StepKeepsEverySelectUnlocked := by
  intro s t hplain hframe hs h
  refine step_keeps hs (fun before x after hnil => ?_) (fun _ => selectsUnlocked_of_trace_eq rfl hs) ?_ h
  · simp [State.reset] at hnil
  · exact fun i t => exec_keeps selectsUnlocked_wireProperty ensurePage_keeps_selectsUnlocked
      (fun _ hb => busWrite_keeps_selectsUnlocked (hb.head?_ne hplain hframe))
      (fun reg _ => busWriteRead_keeps_selectsUnlocked reg) hs

/-! ### The steps of a command that is not turned away (R145) -/

theorem checked_of_ready {s : State} (k : State → Host.Outcome State Fault Refusal) (h : s.ready) :
    (unlessHalted s fun s => requireSession s k) = k s := by
  obtain ⟨hrun, hsess⟩ := h
  rw [unlessHalted_of_running _ hrun, requireSession_of_active k hsess]

theorem exec_selectPage_of_ready {s : State} {p : Nat} (hp : p < 5) (h : s.ready) :
    exec (.selectPage p) s = respondOk (ensurePage ⟨p, hp⟩ s) :=
  (checked_of_ready _ h).trans (dif_pos hp)

/-- The state in which RESET starts its writes: the page and the session forgotten (R95). -/
def State.forgetSession (s : State) : State := { s with cache := .unknown, sess := .noSession }

theorem exec_reset_of_running {s : State} (h : s.running) :
    exec .reset s = respondOk ((writeOnPage 4 softwareResetBytes s.forgetSession).andThen
      fun _ s => .done () { s with sess := .active }) := by
  rw [exec, execReset, unlessHalted_of_running _ h]
  rfl

/-! ### The entries of a page select, and the state after transactions on a page -/

section
variable {s : State} {p : Page}

theorem selectEntries_of_eq (h : s.cache = .page p) : selectEntries s p = [] := if_pos h

/-- On another page the select is sent. -/
theorem selectEntries_of_ne (h : s.cache ≠ .page p) :
    selectEntries s p = [okWrite s unlockBytes, okWrite s (pageSelectBytes p)] := if_neg h

/-- A page select sends two transactions at most (R93). -/
theorem selectEntries_length_le (s : State) (p : Page) : (selectEntries s p).length ≤ 2 := by
  unfold selectEntries
  split <;> simp

end

/-- `s` after transactions that left these entries on the trace, the last of them on page `p`. -/
def State.onPage (s : State) (p : Page) (l : List TraceEntry) : State := { s.advance l with cache := .page p }

section
variable (s : State) (p : Page) (l : List TraceEntry)

@[simp] theorem onPage_cache : (s.onPage p l).cache = .page p := rfl
@[simp] theorem onPage_answers : (s.onPage p l).answers = s.answers.drop l.length := rfl
@[simp] theorem okWrite_onPage (bytes : List Byte) : okWrite (s.onPage p l) bytes = okWrite s bytes := rfl
@[simp] theorem errWrite_onPage (bytes : List Byte) (e : TransportError) :
    errWrite (s.onPage p l) bytes e = errWrite s bytes e := rfl
@[simp] theorem okRead_onPage (reg d : Byte) : okRead (s.onPage p l) reg d = okRead s reg d := rfl
@[simp] theorem errRead_onPage (reg : Byte) (e : TransportError) : errRead (s.onPage p l) reg e = errRead s reg e := rfl
@[simp] theorem sequenceBytes_onPage (q : Sequence) : (s.onPage p l).sequenceBytes q = s.sequenceBytes q :=
  sequenceBytes_congr rfl rfl q

theorem onPage_advance (l' : List TraceEntry) : (s.onPage p l).advance l' = s.onPage p (l ++ l') := by
  rw [State.onPage, advance_updateCache, advance_append, State.onPage]

/-- Another page has to be selected. -/
theorem selectEntries_onPage {q : Page} (h : p ≠ q) :
    selectEntries (s.onPage p l) q = [okWrite s unlockBytes, okWrite s (pageSelectBytes q)] :=
  selectEntries_of_ne fun hc => h (PageCache.page.inj hc)

/-- Transactions on the page after which that page is selected. -/
theorem onPage_onPage {q : Page} (l' : List TraceEntry) : (s.onPage p l).onPage q l' = s.onPage q (l ++ l') := by
  rw [State.onPage, onPage_advance]
  rfl

end

/-! ### The transport answers `ok` -/

theorem answersOk.mono {s : State} {n m : Nat} (h : answersOk s n) (hle : m ≤ n) : answersOk s m := by
  obtain ⟨hlen, hok⟩ := h
  exact ⟨hle.trans hlen, fun a ha => hok a ((List.take_sublist_take_left hle).subset ha)⟩

/-- After as many entries as answers, the remaining answers are still `ok`, whatever the page. -/
theorem answersOk_onPage {s : State} {n m : Nat} {l : List TraceEntry} (p : Page) (h : answersOk s n)
    (hl : l.length + m ≤ n) : answersOk (s.onPage p l) m :=
  (answersOk_congr rfl).mpr (answersOk_advance h hl)

section
variable {s : State} {p q : Page}

theorem ensurePage_onPage (h : answersOk s (selectEntries s p).length) :
    ensurePage p s = .done () (s.onPage p (selectEntries s p)) := ensurePage_of_answersOk (n := 0) p h

theorem writeOnPage_onPage (bytes : List Byte) (h : answersOk s ((selectEntries s p).length + 1)) :
    writeOnPage p bytes s = .done () (s.onPage p (selectEntries s p ++ [okWrite s bytes])) :=
  writeOnPage_of_answersOk (n := 0) p bytes h

/-- A write on a page after transactions on another one: that page has to be selected. -/
theorem writeOnPage_after_onPage {l : List TraceEntry} (hne : p ≠ q) (bytes : List Byte)
    (h : answersOk s (l.length + 3)) : writeOnPage q bytes (s.onPage p l) =
      .done () (s.onPage q (l ++ [okWrite s unlockBytes, okWrite s (pageSelectBytes q), okWrite s bytes])) := by
  have hselect := selectEntries_onPage s p l hne
  rw [writeOnPage_onPage bytes (by rw [hselect]; exact answersOk_onPage p h (Nat.le_refl _)), hselect, onPage_onPage]
  rfl

end

/-- Settles O26: the command is the page select and nothing else. -/
theorem selectPageCompletes : Obligations.SelectPageCompletes := by
  intro s p hp hs hok
  rw [exec_selectPage_of_ready hp hs, ensurePage_onPage hok, respondOk_done]
  rfl

/-- SELECT_PAGE of the cached page does nothing (R94). -/
theorem exec_selectPage_of_hit {s : State} {p : Nat} (hp : p < 5) (hs : s.ready) (hc : s.cache = .page ⟨p, hp⟩) :
    exec (.selectPage p) s = .next (s.respond .ok) := by
  rw [exec_selectPage_of_ready hp hs, ensurePage, if_pos hc, respondOk_done]

/-- Settles O27: the first command leaves the page cached. -/
theorem selectPageTwiceSelectsOnce : Obligations.SelectPageTwiceSelectsOnce := by
  intro s p hp hs hok
  have hle := selectEntries_length_le s ⟨p, hp⟩
  refine ⟨_, selectPageCompletes s p hp hs (hok.mono hle), ?_, exec_selectPage_of_hit hp hs rfl⟩
  simpa using hle

/-- Settles O28: RESET has forgotten the page, so its write is on a page that has to be selected. -/
theorem resetCompletes : Obligations.ResetCompletes := by
  intro s hs hok
  rw [exec_reset_of_running hs, writeOnPage_onPage (s := s.forgetSession) softwareResetBytes hok]
  rfl

/-- Settles O29: the command is one write on page 4. -/
theorem setGlobalVoltageCompletes : Obligations.SetGlobalVoltageCompletes := by
  intro s v hs hok
  refine (checked_of_ready _ hs).trans ?_
  rw [writeOnPage_onPage _ hok, respondOk_done]
  rfl

/-- Settles O33: a write on page 2 and one on page 3, which has to be selected. -/
theorem setAllLedScalesCompletes : Obligations.SetAllLedScalesCompletes := by
  intro s scale hs hok
  refine (checked_of_ready _ hs).trans ?_
  rw [writeOnPage_onPage _ (hok.mono (by omega)), andThen_done, writeOnPage_after_onPage (by decide) _ (by simpa using hok),
    List.append_assoc, respondOk_done]
  rfl

/-- Settles O34: a write on page 0, which leaves the sequences as they were, and one on page 1, which has to be selected. -/
theorem writeLedMatrixCompletes : Obligations.WriteLedMatrixCompletes := by
  intro s hs hok
  refine (checked_of_ready _ hs).trans ?_
  rw [writeOnPage_onPage _ (hok.mono (by omega)), andThen_done, sequenceBytes_onPage,
    writeOnPage_after_onPage (by decide) _ (by simpa using hok), List.append_assoc, respondOk_done]
  rfl

/-! ### The answer after the page select -/

section
variable {s : State} {p : Page} {d : ReadData} {e : TransportError}

/-- The page select when the answer after its own is `a`: that one is next. -/
theorem ensurePage_of_answersOkThen {a : Answer} (h : answersOkThen s (selectEntries s p).length a) :
    ensurePage p s = .done () (s.onPage p (selectEntries s p)) ∧
    ∃ rest, (s.onPage p (selectEntries s p)).answers = a :: rest := by
  obtain ⟨hok, ha⟩ := h
  obtain ⟨hlt, ha⟩ := List.getElem?_eq_some_iff.mp ha
  exact ⟨ensurePage_onPage hok, _, by rw [onPage_answers, List.drop_eq_getElem_cons hlt, ha]⟩

/-- A read on a page that returns `d`. -/
theorem readOnPage_of_ok (reg : Byte) (h : answersOkThen s (selectEntries s p).length (.ok d)) :
    readOnPage p [reg] s = .done d (s.onPage p (selectEntries s p ++ [okRead s reg (firstByte d)])) := by
  obtain ⟨hselect, rest, hd⟩ := ensurePage_of_answersOkThen h
  rw [readOnPage, hselect, andThen_done, busWriteRead_of_ok reg hd, okRead_onPage, onPage_advance]

/-- A read on a page that fails after the page select. -/
theorem readOnPage_of_err (reg : Byte) (h : answersOkThen s (selectEntries s p).length (.err e)) :
    readOnPage p [reg] s = .aborted e (errorEntry (s.onPage p (selectEntries s p ++ [errRead s reg e]))) := by
  obtain ⟨hselect, rest, he⟩ := ensurePage_of_answersOkThen h
  rw [readOnPage, hselect, andThen_done, busWriteRead_of_err reg he, errRead_onPage, onPage_advance]

/-- A write on a page that fails after the page select. -/
theorem writeOnPage_of_err (bytes : List Byte) (h : answersOkThen s (selectEntries s p).length (.err e)) :
    writeOnPage p bytes s = .aborted e (errorEntry (s.onPage p (selectEntries s p ++ [errWrite s bytes e]))) := by
  obtain ⟨hselect, rest, he⟩ := ensurePage_of_answersOkThen h
  rw [writeOnPage, hselect, andThen_done, busWrite_of_err bytes he, errWrite_onPage, onPage_advance]

end

/-- Settles O30: either command is one read on page 4. -/
theorem getCommandsReturnTheByteRead : Obligations.GetCommandsReturnTheByteRead := by
  intro s d hs hd
  have hread (reg : Byte) : respondData (readOnPage 4 [reg] s) =
      .next ((s.onPage 4 (selectEntries s 4 ++ [okRead s reg d])).respond (.okData d)) := by
    rw [readOnPage_of_ok reg hd, respondData_done]
    rfl
  exact ⟨(checked_of_ready _ hs).trans (hread _), (checked_of_ready _ hs).trans (hread _)⟩

/-- Settles O31: the write-back is the transaction after the read, with the byte of the read's answer. -/
theorem shutdownModeOffWritesBackTheByteRead : Obligations.ShutdownModeOffWritesBackTheByteRead := by
  intro s d hs hd hok
  refine (checked_of_ready _ hs).trans ?_
  rw [readConfigBytes, readOnPage_of_ok _ hd, andThen_done,
    busWrite_of_answersOk (n := 0) _ (answersOk_onPage 4 hok (by simp)), onPage_advance, List.append_assoc, respondOk_done]
  rfl

/-! ### The transport fails (R92, R143) -/

/-- The error entry as an update of the cache. -/
theorem errorEntry_eq (s : State) :
    errorEntry s = { s with cache := if s.params.cacheOnError = .invalidate then .unknown else s.cache } := by
  cases h : s.params.cacheOnError <;> simp [errorEntry, h]

section
variable {s : State} {p : Page} {d : ReadData} {e : TransportError} {rest : List Answer}

/-- A page select that fails at its unlock. -/
theorem ensurePage_of_unlock_err (hmiss : s.cache ≠ .page p) (h : s.answers = .err e :: rest) :
    ensurePage p s = .aborted e (errorEntry (s.advance [errWrite s unlockBytes e])) := by
  rw [ensurePage, if_neg hmiss, busWrite_of_err _ h, andThen_aborted, andThen_aborted]

/-- A page select that fails at its select. -/
theorem ensurePage_of_select_err (hmiss : s.cache ≠ .page p) (h : s.answers = .ok d :: .err e :: rest) :
    ensurePage p s =
      .aborted e (errorEntry (s.advance [okWrite s unlockBytes, errWrite s (pageSelectBytes p) e])) := by
  have hnext : (s.advance [okWrite s unlockBytes]).answers = .err e :: rest := by rw [advance_answers, h]; rfl
  rw [ensurePage, if_neg hmiss, busWrite_of_ok _ h, andThen_done, busWrite_of_err _ hnext, andThen_aborted,
    errWrite_advance, advance_append]
  rfl

theorem writeOnPage_of_select_aborted {s' : State} (bytes : List Byte) (h : ensurePage p s = .aborted e s') :
    writeOnPage p bytes s = .aborted e s' := by
  rw [writeOnPage, h, andThen_aborted]

/-- On the cached page the first answer is that of the transaction itself. -/
theorem answersOkThen_of_hit {a : Answer} (hc : s.cache = .page p) (h : s.answers = a :: rest) :
    answersOkThen s (selectEntries s p).length a := by
  rw [selectEntries_of_eq hc]
  exact ⟨answersOk_zero s, by rw [h]; rfl⟩

/-- On another page the third answer is that of the transaction itself. -/
theorem answersOkThen_of_miss {d' : ReadData} {a : Answer} (hmiss : s.cache ≠ .page p)
    (h : s.answers = .ok d :: .ok d' :: a :: rest) : answersOkThen s (selectEntries s p).length a := by
  rw [selectEntries_of_ne hmiss]
  simp [answersOkThen, answersOk, h, Answer.isOk]

/-- A write on the cached page is the one transaction. -/
theorem writeOnPage_of_hit (bytes : List Byte) (hc : s.cache = .page p) (h : s.answers = .ok d :: rest) :
    writeOnPage p bytes s = .done () (s.onPage p [okWrite s bytes]) := by
  rw [writeOnPage_onPage bytes (by simp [selectEntries_of_eq hc, answersOk, h, Answer.isOk]), selectEntries_of_eq hc,
    List.nil_append]

end

/-- Settles O41: the two failures of the page select, and the error entry. -/
theorem failedSelectLeavesThePageUnknown : Obligations.FailedSelectLeavesThePageUnknown := by
  intro s p hp d e rest hs hmiss
  rw [exec_selectPage_of_ready hp hs]
  constructor
  · intro h
    rw [ensurePage_of_unlock_err hmiss h, respondOk_aborted, errorEntry_eq]
    rfl
  · intro h
    rw [ensurePage_of_select_err hmiss h, respondOk_aborted, errorEntry_eq]
    rfl

/-- RESET when its write on page 4 fails at any of the three transactions: no session is begun. -/
theorem exec_reset_of_aborted {s s' : State} {e : TransportError} (hs : s.running)
    (h : writeOnPage 4 softwareResetBytes s.forgetSession = .aborted e s') :
    exec .reset s = .next (s'.respond (.errTransport e)) := by
  rw [exec_reset_of_running hs, h, andThen_aborted, respondOk_aborted]

/-- After RESET has forgotten the page, an error leaves it forgotten under either policy. -/
theorem errorEntry_forgetSession (s : State) (l : List TraceEntry) :
    errorEntry (s.forgetSession.advance l) = { s.advance l with cache := .unknown, sess := .noSession } := by
  cases hpolicy : s.params.cacheOnError <;> simp [errorEntry, State.forgetSession, State.advance, hpolicy]

/-- Settles O42: RESET forgets page and session before its first write, so under either policy the cache is Unknown until the
select has succeeded. -/
theorem failedResetLeavesNoSession : Obligations.FailedResetLeavesNoSession := by
  intro s d d' e rest hs
  have hmiss : s.forgetSession.cache ≠ .page 4 := PageCache.noConfusion
  refine ⟨fun h => ?_, fun h => ?_, fun h => ?_⟩
  · rw [exec_reset_of_aborted hs (writeOnPage_of_select_aborted _ (ensurePage_of_unlock_err hmiss h)),
      errorEntry_forgetSession]
    rfl
  · rw [exec_reset_of_aborted hs (writeOnPage_of_select_aborted _ (ensurePage_of_select_err hmiss h)),
      errorEntry_forgetSession]
    rfl
  · rw [exec_reset_of_aborted hs (writeOnPage_of_err _ (answersOkThen_of_miss hmiss h)), errorEntry_eq]
    rfl

/-- Settles O43: from Page(2) the failure is at the unlock for page 3, otherwise at the select of page 2. -/
theorem failedScalesNeverReachPageThree : Obligations.FailedScalesNeverReachPageThree := by
  intro s scale d e rest hs h
  refine (checked_of_ready _ hs).trans ?_
  split
  next hc =>
    have hmiss : (s.onPage 2 [okWrite s (scaleSeq0 scale)]).cache ≠ .page 3 := by simp
    have hnext : (s.onPage 2 [okWrite s (scaleSeq0 scale)]).answers = .err e :: rest := by simp [h]
    rw [writeOnPage_of_hit _ hc h, andThen_done,
      writeOnPage_of_select_aborted _ (ensurePage_of_unlock_err hmiss hnext), respondOk_aborted, errorEntry_eq,
      onPage_advance]
    rfl
  next hmiss =>
    rw [writeOnPage_of_select_aborted _ (ensurePage_of_select_err hmiss h), andThen_aborted, respondOk_aborted,
      errorEntry_eq]
    rfl

/-- Settles O44: on the cached page the first answer is the read's and the second the write-back's. -/
theorem failedShutdownModeOffIsNotRetried : Obligations.FailedShutdownModeOffIsNotRetried := by
  intro s d e rest hs hc
  constructor
  · intro h
    refine (checked_of_ready _ hs).trans ?_
    rw [readConfigBytes, readOnPage_of_err _ (answersOkThen_of_hit hc h), andThen_aborted, respondOk_aborted,
      errorEntry_eq, selectEntries_of_eq hc]
    rfl
  · intro h
    refine (checked_of_ready _ hs).trans ?_
    rw [readConfigBytes, readOnPage_of_ok _ (answersOkThen_of_hit hc h), selectEntries_of_eq hc, andThen_done,
      busWrite_of_err (e := e) (l := rest) _ (by simp [h]), respondOk_aborted, errorEntry_eq, onPage_advance]
    rfl

/-- Settles O45: of the effects a command can have, only an abort answers ERR_TRANSPORT. -/
theorem firstTransportErrorEndsTheCommand : Obligations.FirstTransportErrorEndsTheCommand := by
  intro i s t e h hresponse
  cases exec_effect h with
  | fault k ht => subst ht; simp at hresponse
  | stored u _ hu ht => rw [ht, hu] at hresponse; simp at hresponse
  | completed r _ _ _ _ hr _ _ ht => subst ht; rcases hr with rfl | ⟨d, rfl⟩ <;> simp at hresponse
  | aborted e' added last c x _ hadded hlast hc hx ht =>
    subst ht
    obtain rfl : e' = e := by simpa using hresponse
    exact ⟨⟨added, last, rfl, hadded, hlast⟩, rfl, rfl, rfl, rfl, rfl, hx, hc⟩

/-! ### There is no session (R95, R96) -/

theorem checked_of_noSession {s : State} (k : State → Host.Outcome State Fault Refusal) (hs : s.running)
    (hsess : s.sess = .noSession) : (unlessHalted s fun s => requireSession s k) = raiseFault .noSession s := by
  rw [unlessHalted_of_running _ hs, requireSession_of_noSession k hsess]

/-- The session check of each command that needs a session stands before its operands are looked at (R96, R145). -/
theorem exec_of_noSession {i : Instr} {s : State} (hneeds : i.needsSession = true) (hs : s.running)
    (hsess : s.sess = .noSession) : exec i s = raiseFault .noSession s := by
  cases i with
  | setLed => cases hneeds
  | setPixel => cases hneeds
  | reset => cases hneeds
  | _ => exact checked_of_noSession _ hs hsess

/-- Settles O12: the fault entry of R144, written out, and RESET overwrites the session before its first write. -/
theorem sessionCheckComesBeforeEverything : Obligations.SessionCheckComesBeforeEverything := by
  constructor
  · exact fun i s hneeds hs hsess => exec_of_noSession hneeds hs hsess
  · intro s x hs
    exact (exec_reset_of_running (s := { s with sess := x }) hs).trans (exec_reset_of_running hs).symm

/-- Without a session a command other than RESET sends nothing: it is halted, of unit M, or faults. -/
theorem exec_keeps_trace_of_noSession {i : Instr} {s t : State} (hi : i ≠ .reset) (hsess : s.sess = .noSession)
    (h : exec i s = .next t) : t.trace = s.trace := by
  cases hunit : i.isUnitM with
  | true =>
    obtain ⟨-, -, htrace, -, -⟩ := exec_unitM_keeps_unitP hunit h
    exact htrace
  | false =>
    cases hhalted : s.halted with
    | true =>
      rw [exec_of_halted i hhalted] at h
      cases h
      rfl
    | false =>
      have hneeds : i.needsSession = true := by simp [Instr.needsSession, hunit, hi]
      rw [exec_of_noSession hneeds hhalted hsess] at h
      rw [raiseFault_next h]
      rfl

/-- RESET's three writes: the unlock, the select of page 4 and the software reset (R95). -/
def resetTransactions (s : State) : List Transaction :=
  [.write s.params.busAddr unlockBytes, .write s.params.busAddr (pageSelectBytes 4),
    .write s.params.busAddr softwareResetBytes]

/-- RESET issues its own three writes at most. -/
theorem exec_reset_issues {s t : State} (h : exec .reset s = .next t) : Issued (· ∈ resetTransactions s) s t := by
  rw [exec, execReset] at h
  rcases unlessHalted_next h with ⟨-, rfl⟩ | ⟨-, h⟩
  · exact Issued.refl _ s
  · have hstart : Issued (· ∈ resetTransactions s) s s.forgetSession := Issued.refl _ s
    have hselect : StepsKeep (Issued (· ∈ resetTransactions s) s) (ensurePage 4) :=
      ensurePage_issues (by simp [resetTransactions]) (by simp [resetTransactions])
    have hwrite : StepsKeep (Issued (· ∈ resetTransactions s) s) (busWrite softwareResetBytes) :=
      busWrite_issues (by simp [resetTransactions])
    refine respondOk_keeps issued_wireProperty (Progress.all_andThen (writeOnPage_keeps hselect hwrite _ hstart) ?_) h
    exact fun _ _ _ hs' => hs'

/-- Settles O51: RESET's transactions are its own three writes, and the other commands have none. -/
theorem withoutSessionOnlyResetReachesTheWire : Obligations.WithoutSessionOnlyResetReachesTheWire := by
  intro i s t hsess h
  by_cases hi : i = .reset
  · subst hi
    obtain ⟨-, added, htrace, hadded⟩ := exec_reset_issues h
    exact ⟨added, htrace, fun hne => absurd rfl hne, hadded⟩
  · exact ⟨[], by rw [exec_keeps_trace_of_noSession hi hsess h, List.append_nil], fun _ => rfl, by simp⟩

end Sys2Proof.Machine
end

section
/-! Proofs of the obligations of 43_config_ops: the byte SET_SOFTWARE_SHUTDOWN_MODE_OFF writes back, bit by bit (O32). -/

namespace Sys2Proof.Machine

/-- The bit that turns software-shutdown mode off is bit 0, and no other (R5). -/
theorem getLsbD_shutdownOffBit (i : Nat) : Config.shutdownOffBit.getLsbD i = decide (i = 0) := by
  simp [Config.shutdownOffBit, BitVec.getLsbD_one]

/-- The OR of the write-back sets bit 0 and keeps every other bit (R112). -/
theorem getLsbD_or_shutdownOffBit (d : Byte) (i : Nat) :
    (d ||| Config.shutdownOffBit).getLsbD i = (d.getLsbD i || decide (i = 0)) := by
  rw [BitVec.getLsbD_or, getLsbD_shutdownOffBit]

/-- Settles O32: the byte written back is the byte read with the shutdown bit set. -/
theorem writeBackKeepsTheOtherBits : Obligations.WriteBackKeepsTheOtherBits := by
  intro d
  refine ⟨d ||| Config.shutdownOffBit, rfl, ?bitZeroSet, fun i hi _ => ?otherBitsKept⟩
  case bitZeroSet => simp only [getLsbD_or_shutdownOffBit, decide_true, Bool.or_true]
  case otherBitsKept =>
    have hne : i ≠ 0 := Nat.one_le_iff_ne_zero.mp hi
    simp only [getLsbD_or_shutdownOffBit, hne, decide_false, Bool.or_false]

end Sys2Proof.Machine
end

section
/-! Proofs of the obligations of 44_bulk_ops: the scale payloads (O36), the order of a script's pages (O38), and what a script
command sends and leaves when the transport answers `ok` (O37). -/

namespace Sys2Proof.Machine

/-! ### The scale payloads (R120) -/

theorem scaleSeq0_length (scale : Byte) : (scaleSeq0 scale).length = 181 := congrArg (· + 1) List.length_replicate

theorem scaleSeq1_length (scale : Byte) : (scaleSeq1 scale).length = 178 := congrArg (· + 1) List.length_replicate

/-- Settles O36: either payload is the command byte and as many copies of the scale as its sequence has data bytes. -/
theorem scalePayloadsHoldTheScale : Obligations.ScalePayloadsHoldTheScale := fun scale =>
  ⟨rfl, scaleSeq0_length scale, rfl, scaleSeq1_length scale⟩

/-! ### The order of a script's pages (R127) -/

/-- The pairs of a script that write these payloads on one page. -/
def pairsOn (p : Page) (payloads : List Payload) : List (Page × List Byte) := payloads.map fun b => (p, Payload.bytes b)

/-- A script is its first payload on page 0, and then its payloads on pages 1, 2 and 3. -/
theorem scriptPairs_eq (c : Script) :
    scriptPairs c = (0, Payload.bytes c.first) :: (pairsOn 1 c.page1 ++ pairsOn 2 c.page2 ++ pairsOn 3 c.page3) := rfl

theorem Payload.bytes_ne_nil (b : Payload) : Payload.bytes b ≠ [] := List.cons_ne_nil _ _

/-- The pairs are on pages `lo` to `hi` in non-strictly ascending order, and each of them writes at least one byte. -/
structure AscendWithin (lo hi : Nat) (pairs : List (Page × List Byte)) : Prop where
  within : ∀ pair ∈ pairs, lo ≤ pair.1.val ∧ pair.1.val ≤ hi ∧ pair.2 ≠ []
  ascend : pairs.Pairwise fun a b => a.1.val ≤ b.1.val

theorem ascendWithin_pairsOn (p : Page) (payloads : List Payload) : AscendWithin p.val p.val (pairsOn p payloads) where
  within := List.forall_mem_map.mpr fun b _ => ⟨Nat.le_refl _, Nat.le_refl _, Payload.bytes_ne_nil b⟩
  ascend := List.pairwise_map.mpr (List.pairwise_of_forall fun _ _ => Nat.le_refl _)

/-- Pairs on higher pages may follow. -/
theorem AscendWithin.append {lo mid mid' hi : Nat} {pairs pairs' : List (Page × List Byte)}
    (h : AscendWithin lo mid pairs) (h' : AscendWithin mid' hi pairs') (hlo : lo ≤ mid') (hmid : mid ≤ mid')
    (hhi : mid ≤ hi) : AscendWithin lo hi (pairs ++ pairs') where
  within := List.forall_mem_append.mpr
    ⟨fun a ha => (h.within a ha).imp_right (And.imp_left (·.trans hhi)), fun b hb => (h'.within b hb).imp_left hlo.trans⟩
  ascend := List.pairwise_append.mpr ⟨h.ascend, h'.ascend, fun a ha b hb =>
    have ⟨_, ha, _⟩ := h.within a ha
    have ⟨hb, _, _⟩ := h'.within b hb
    ha.trans (hmid.trans hb)⟩

/-- Settles O38: the pairs after the first are those on page 1, on page 2 and on page 3, one list after the other. -/
theorem scriptsStartOnPageZero : Obligations.ScriptsStartOnPageZero := by
  intro c
  have h12 : AscendWithin 1 2 (pairsOn 1 c.page1 ++ pairsOn 2 c.page2) :=
    (ascendWithin_pairsOn 1 _).append (ascendWithin_pairsOn 2 _) (by decide) (by decide) (by decide)
  have h123 : AscendWithin 1 3 (pairsOn 1 c.page1 ++ pairsOn 2 c.page2 ++ pairsOn 3 c.page3) :=
    h12.append (ascendWithin_pairsOn 3 _) (by decide) (by decide) (by decide)
  exact ⟨_, _, scriptPairs_eq c, Payload.bytes_ne_nil c.first, h123.within, h123.ascend⟩

/-! ### Running a script (R124 to R127) -/

/-- The entries of a script do not depend on what was sent before it, but for the cache it starts with. -/
@[simp] theorem scriptEntries_onPage (s : State) (p : Page) (l : List TraceEntry) (c : PageCache)
    (pairs : List (Page × List Byte)) : scriptEntries (s.onPage p l) c pairs = scriptEntries s c pairs := by
  induction pairs generalizing c with
  | nil => rfl
  | cons pair rest ih => simp only [scriptEntries, okWrite_onPage, ih]

/-- The first pair of a script is a write on its page, and the rest starts on that page. -/
theorem scriptEntries_cons (s : State) (p : Page) (bytes : List Byte) (rest : List (Page × List Byte)) :
    scriptEntries s s.cache ((p, bytes) :: rest) =
      (selectEntries s p ++ [okWrite s bytes]) ++ scriptEntries s (.page p) rest := by
  rw [List.append_assoc]
  rfl

/-- A script whose transactions are answered `ok` (R127). -/
theorem runScript_of_answersOk (pairs : List (Page × List Byte)) {s : State}
    (h : answersOk s (scriptEntries s s.cache pairs).length) :
    runScript pairs s =
      .done () { s.advance (scriptEntries s s.cache pairs) with cache := scriptCache s.cache pairs } := by
  induction pairs generalizing s with
  | nil => rw [scriptEntries, advance_nil]; rfl
  | cons pair rest ih =>
    obtain ⟨p, bytes⟩ := pair
    rw [scriptEntries_cons] at h ⊢
    have hwrite : writeOnPage p bytes s = .done () (s.onPage p (selectEntries s p ++ [okWrite s bytes])) :=
      writeOnPage_onPage bytes (h.mono (by simp))
    have hrest : answersOk (s.onPage p (selectEntries s p ++ [okWrite s bytes])) (scriptEntries s (.page p) rest).length :=
      answersOk_onPage p h List.length_append.ge
    rw [runScript, hwrite, andThen_done, ih (by simpa only [onPage_cache, scriptEntries_onPage] using hrest), onPage_cache,
      scriptEntries_onPage, onPage_advance]
    rfl

/-- A script command of a block that is ready, whichever of the parameters its script is. -/
theorem scriptCommand_of_answersOk (script : Params → Script) {s : State} (hs : s.ready)
    (h : answersOk s (scriptEntries s s.cache (scriptPairs (script s.params))).length) :
    (unlessHalted s fun s => requireSession s fun s => respondOk (runScript (scriptPairs (script s.params)) s)) =
      .next (({ s.advance (scriptEntries s s.cache (scriptPairs (script s.params))) with
        cache := scriptCache s.cache (scriptPairs (script s.params)) } : State).respond .ok) := by
  rw [checked_of_ready _ hs, runScript_of_answersOk _ h, respondOk_done]

/-- Settles O37: each of the three commands is a script command on its own parameter. -/
theorem scriptCommandsRunTheirScripts : Obligations.ScriptCommandsRunTheirScripts := fun _ hs =>
  ⟨scriptCommand_of_answersOk Params.scriptSetLed0 hs, scriptCommand_of_answersOk Params.scriptSetLed1 hs,
    scriptCommand_of_answersOk Params.scriptSetLeds hs⟩

end Sys2Proof.Machine
end

section
/-! Proofs of the obligations of 60_exceptions: a halted block answers the latched fault (O10), faults are precise (O14), and what
each cache policy believes after a failed page select (O47). -/

namespace Sys2Proof.Machine

/-! ### The fault latch (R144, R148, R150) -/

/-- A step from a halted state to one that is not halted was a hardware reset: the two other cases of the port keep the latch. -/
theorem hardwareReset_of_step_clears_latch {s t : State} (hs : s.halted = true) (h : step s = .next t)
    (ht : t.halted = false) : ∃ rest, s.port = .hardwareReset :: rest := by
  cases hport : s.port with
  | nil =>
    have hidle : step s = .next s := by simp only [step, fetch, hport, List.head?_nil]
    rw [hidle] at h
    cases h
    exact absurd hs (by simp [ht])
  | cons event rest =>
    cases event with
    | command w =>
      rw [step_of_halted hs hport] at h
      cases h
      exact absurd hs (by simpa using ht)
    | hardwareReset => exact ⟨rest, rfl⟩

/-- Settles O10: the latched fault is the response to any command word, and the port holds the hardware reset that clears it. -/
theorem haltedBlockAnswersTheLatchedFault : Obligations.HaltedBlockAnswersTheLatchedFault := by
  intro s hs
  refine ⟨fun w rest hport => ?_, fun t => hardwareReset_of_step_clears_latch hs⟩
  rw [step_of_halted hs hport, State.respond, hport, List.tail_cons]

/-- Settles O14: of the effects a command can have, only the fault entry answers FAULT, and with the kind it latches. -/
theorem faultsArePrecise : Obligations.FaultsArePrecise := by
  intro i s t k h hresponse
  cases exec_effect h with
  | fault k' ht =>
    subst ht
    obtain rfl : k' = k := by simpa using hresponse
    rfl
  | stored u _ hu ht => rw [ht, hu] at hresponse; simp at hresponse
  | completed r _ _ _ _ hr _ _ ht => subst ht; rcases hr with rfl | ⟨d, rfl⟩ <;> simp at hresponse
  | aborted _ _ _ _ _ _ _ _ _ _ ht => subst ht; simp at hresponse

/-! ### The page cache after a failed page select (R143, R165, R170) -/

/-- The state after a page select of `q` that failed at its select: the cache is as the policy leaves it (R143). -/
def State.afterFailedSelect (s : State) (q : Page) (e : TransportError) : State :=
  ({ s.advance [okWrite s unlockBytes, errWrite s (pageSelectBytes q) e] with
    cache := if s.params.cacheOnError = .invalidate then .unknown else s.cache } : State).respond (.errTransport e)

theorem exec_selectPage_of_select_err {s : State} {q : Page} {e : TransportError} {d : ReadData}
    {rest : List Answer} (hs : s.ready) (hmiss : s.cache ≠ .page q)
    (h : s.answers = .ok d :: .err e :: rest) :
    exec (.selectPage q) s = .next (s.afterFailedSelect q e) := by
  obtain ⟨-, hselect⟩ := failedSelectLeavesThePageUnknown s q q.isLt d e rest hs hmiss
  exact hselect h

section
variable {s : State} (q : Page) (e : TransportError)

theorem afterFailedSelect_ready (hs : s.ready) : (s.afterFailedSelect q e).ready := hs

theorem afterFailedSelect_cache_of_keep (h : s.params.cacheOnError = .keep) :
    (s.afterFailedSelect q e).cache = s.cache := by
  simp [State.afterFailedSelect, h]

theorem afterFailedSelect_cache_of_invalidate (h : s.params.cacheOnError = .invalidate) :
    (s.afterFailedSelect q e).cache = .unknown := by
  simp [State.afterFailedSelect, h]

theorem afterFailedSelect_answers : (s.afterFailedSelect q e).answers = s.answers.drop 2 := rfl

end

/-- Settles O47: under Keep the old page is a cache hit; under Invalidate it is a miss, as every page is. -/
theorem staleCacheTrapOfTheKeepPolicy : Obligations.StaleCacheTrapOfTheKeepPolicy := by
  intro s p q d d1 d2 e rest hs hc hne h
  have hmiss : s.cache ≠ .page q := fun hq => hne (PageCache.page.inj (hc.symm.trans hq))
  have hready := afterFailedSelect_ready q e hs
  refine ⟨s.afterFailedSelect q e, exec_selectPage_of_select_err hs hmiss h, fun hkeep => ?_, fun hinvalidate => ?_⟩
  · exact exec_selectPage_of_hit p.isLt hready ((afterFailedSelect_cache_of_keep q e hkeep).trans hc)
  · have hunknown : (s.afterFailedSelect q e).cache ≠ .page p := by
      simp [afterFailedSelect_cache_of_invalidate q e hinvalidate]
    have hok : answersOk (s.afterFailedSelect q e) 2 := by
      simp [answersOk, afterFailedSelect_answers, h, Answer.isOk]
    have hentries := selectEntries_of_ne hunknown
    have hexec := selectPageCompletes _ p p.isLt hready (by rw [hentries]; exact hok)
    rwa [hentries] at hexec

end Sys2Proof.Machine
end

section
/-! Proof of the obligation of 70_reset_and_hazards: a hardware reset gives the block its reset values (O8). -/

namespace Sys2Proof.Machine

/-- The step that takes a hardware reset is `hardwareReset`, whatever the latch holds (R160). -/
theorem step_of_hardwareReset {s : State} {rest : List HostEvent} (hport : s.port = .hardwareReset :: rest) :
    step s = .next (hardwareReset s) := by
  simp only [step, fetch, hport, List.head?_cons]

/-- Both sequences are those of the reset state. -/
@[simp] theorem hardwareReset_byteAt (s : State) (q : Sequence) (a : Nat) :
    (hardwareReset s).byteAt q a = State.reset.byteAt q a := by
  cases q with
  | s0 => rfl
  | s1 => rfl

/-- Settles O8: the step is `hardwareReset`, which takes the reset state's values (R23, O9) and keeps the constants and the
count of transactions. -/
theorem hardwareResetRestoresResetValues : Obligations.HardwareResetRestoresResetValues := by
  intro s rest hport
  obtain ⟨hbytes, hcache, hsess, hhalted, htrace⟩ := resetStateHasTheSpecsValues
  exact ⟨hardwareReset s, step_of_hardwareReset hport, fun q a => (hardwareReset_byteAt s q a).trans (hbytes q a),
    (hardwareReset_cache s).trans hcache, (hardwareReset_sess s).trans hsess, (hardwareReset_halted s).trans hhalted,
    (hardwareReset_trace s).trans htrace, hardwareReset_params s, hardwareReset_asked s⟩

end Sys2Proof.Machine
end
